-- ==== Sys2Proof/Word.lean ====
section
/-!
DEFINITION. The word of the K14 and the plain types its commands carry: parties, ports, links, pins, and what a
wire or a link hands the device. Nothing here has an effect on the machine.
-/
namespace Sys2Proof

/-- A word is 14 bits (R5). -/
abbrev Word := BitVec 14

/-- A stored code word: 14 data, 5 check bits and the overall parity bit (R32). -/
abbrev Code := BitVec 20

/-- A byte of a wire (R6). -/
abbrev Byte := BitVec 8

/-- A word address (02_words_and_holds, Banks and pages). -/
abbrev Addr := BitVec 21

/-- The low half, bits [6:0] (R5). -/
def Word.low (w : Word) : BitVec 7 := w.extractLsb' 0 7

/-- The high half, bits [13:7] (R5). -/
def Word.high (w : Word) : BitVec 7 := w.extractLsb' 7 7

/-- A word from its halves, low half first (R5). -/
def Word.ofHalves (lo hi : BitVec 7) : Word := (hi ++ lo).cast (by decide)

/-- Port A or port B. -/
inductive Port where
  | a | b
  deriving DecidableEq, Repr

/-- A party is port A, port B or the pilot (10_semaphores_mailboxes, Parties). -/
inductive Party where
  | portA | portB | pilot
  deriving DecidableEq, Repr

/-- The party a port is. -/
def Port.party : Port → Party
  | .a => .portA
  | .b => .portB

/-- The other port. -/
def Port.other : Port → Port
  | .a => .b
  | .b => .a

/-- The owner code of R254: 01 port A, 10 port B, 11 pilot. -/
def Party.code : Party → Nat
  | .portA => 1
  | .portB => 2
  | .pilot => 3

/-- The party an owner code names; 00 names none. -/
def Party.ofCode : Nat → Option Party
  | 1 => some .portA
  | 2 => some .portB
  | 3 => some .pilot
  | _ => none

/-- A physical link of the ferry ring: UP or DN (15_ferry_ring, Links and training). -/
inductive Link where
  | up | dn
  deriving DecidableEq, Repr

/-- The opposite link. -/
def Link.other : Link → Link
  | .up => .dn
  | .dn => .up

/-- One word of a WRITE as it crosses the wire (R162): its low byte, its high byte, which is missing where CS# rose before
it had crossed (R164), and the slots from the item before it to its last byte (R469, R470; the first counts from CS#
fall). -/
structure WireWord where
  lo : Byte
  hi : Option Byte
  delta : Nat
  deriving DecidableEq, Repr

/-- The seven data bits of a wire byte (R162). -/
def wireHalf (b : Byte) : BitVec 7 := b.extractLsb' 0 7

/-- The sideband bit of a wire byte (R162). -/
def wireSide (b : Byte) : Bool := b.getLsbD 7

/-- A wire byte from its half and its sideband bit (R162). -/
def wireByte (h : BitVec 7) (s : Bool) : Byte := (BitVec.ofBool s ++ h).cast (by decide)

/-- The data a word of a WRITE carries; a half that has not crossed is logged as 0 (DESIGN CHOICE, log entry 88). -/
def WireWord.data (w : WireWord) : Word := Word.ofHalves (wireHalf w.lo) ((w.hi.map wireHalf).getD 0#7)

/-- The low half's enable S0 (R173). -/
def WireWord.s0 (w : WireWord) : Bool := wireSide w.lo

/-- The high half's enable S1 (R173). -/
def WireWord.s1 (w : WireWord) : Bool := (w.hi.map wireSide).getD false

/-- The word's two bytes have crossed (R164). -/
def WireWord.whole (w : WireWord) : Bool := w.hi.isSome

/-- The two bytes, low byte first, in which a word and its sideband bits cross the wire (R162). -/
def wireBytes (data : Word) (s0 s1 : Bool) : Byte × Byte := (wireByte data.low s0, wireByte data.high s1)

/-- A whole word of a WRITE from its data and its half-enables. -/
def WireWord.of (data : Word) (s0 s1 : Bool) (delta : Nat) : WireWord :=
  { lo := (wireBytes data s0 s1).1, hi := some (wireBytes data s0 s1).2, delta := delta }

/-- The commands of a port transaction (R165). -/
inductive PortOp where
  | readStatus | read | write | readSfdp | resetEnable | resetPort
  deriving DecidableEq, Repr

/-- What the configuration flash answers as LOAD begins (R104): its SFDP space from address 0 on, and the byte it answers to the
status read that its quad enable requirements name. -/
structure FlashId where
  sfdp : List Byte
  status : Byte
  deriving DecidableEq, Repr

/-- The two copies of the image in the flash (R103). -/
inductive CopyId where
  | copyA | copyB
  deriving DecidableEq, Repr

/-- The three conditions of a WAKE attempt, in the order of R135. -/
inductive WakeCond where
  | regulator | crystal | pll
  deriving DecidableEq, Repr

/-- The raw and filtered state of the FRZ pair (R452). -/
inductive PairState where
  | idle | trig | bad
  deriving DecidableEq, Repr

/-- A FRZ wire. -/
inductive FrzWire where
  | p | n
  deriving DecidableEq, Repr

/-- One round of the harness monitor (R447): levels in mV. `vbatsAlt` is the reading of VBATS in the other bias
state (R450); the two low flags of the FRZ pair say which wire crossed its threshold last (R454). -/
structure Measurement where
  vdd : Int
  wake : Int
  vbats : Int
  vbatsAlt : Int
  frzP : Int
  frzN : Int
  /-- The FRZ wire that went low last, if one did since the start. -/
  lastLow : Option FrzWire
  /-- The FRZ wire that went high last, if one did since the start. -/
  lastHigh : Option FrzWire
  deriving DecidableEq, Repr

/-- What answers the common-mode probe of training step 1 (R380, R381). -/
inductive ProbeResult where
  | receiver | driver | nothing
  deriving DecidableEq, Repr

/-- The frame types of R388. -/
inductive FrameType where
  | enum | enumEnd | ringmap | fold | rep | belay | query | trep | qnone | semclaim | semrel | semstate | peer
  | deliv | keep
  deriving DecidableEq, Repr

/-- The type code of R388. -/
def FrameType.code : FrameType → Nat
  | .enum => 1 | .enumEnd => 2 | .ringmap => 3 | .fold => 4 | .rep => 5 | .belay => 6 | .query => 7 | .trep => 8
  | .qnone => 9 | .semclaim => 10 | .semrel => 11 | .semstate => 12 | .peer => 13 | .deliv => 14 | .keep => 15

/-- The traffic class of each type (R388). -/
def FrameType.cls : FrameType → Nat
  | .enum | .enumEnd | .ringmap | .fold => 0
  | .rep | .belay | .query | .trep | .qnone => 1
  | .semclaim | .semrel | .semstate => 2
  | .peer | .deliv | .keep => 3

/-- The JTAG instructions of R508. -/
inductive JtagIr where
  | extest | idcode | sample | bypass
  deriving DecidableEq, Repr

/-- Bit `n` of a natural number. -/
def bit (v n : Nat) : Bool := v.testBit n

/-- Bits [lo + w - 1 : lo] of a natural number. -/
def field (v lo w : Nat) : Nat := (v >>> lo) % 2 ^ w

/-- 1 for true, 0 for false. -/
def b2n (b : Bool) : Nat := if b then 1 else 0

/-- A word from a natural number, modulo 2^14. -/
def wd (n : Nat) : Word := BitVec.ofNat 14 n

/-- Word j of a multi-word value, the least significant word first (R7). -/
def wordOf (v j : Nat) : Word := wd (field v (14 * j) 14)

/-- The value of consecutive words, the least significant first (R7). -/
def ofWords : List Word → Nat
  | [] => 0
  | w :: ws => w.toNat + 16384 * ofWords ws

/-- The words of a value, the least significant first (R7). -/
def toWords (v : Nat) : Nat → List Word
  | 0 => []
  | n + 1 => wd v :: toWords (v / 16384) n

/-- A counter of access SAT with `w` bits holds its all-ones value once it reaches it (R14). -/
def satInc (w : Nat) (v : Nat) (by' : Nat := 1) : Nat := min (2 ^ w - 1) (v + by')

/-- Ceiling of a division. -/
def ceilDiv (a b : Nat) : Nat := (a + b - 1) / b

end Sys2Proof
end

