-- ==== Sys2Proof/Syntax.lean ====
section
/-!
DEFINITION. The commands of the K14: one constructor per row of spec/opcode_table.json, in the table's order.

A port transaction carries `head`, the bytes it opens with as the port's protocol samples them (R158, R160, R161). A frame carries
`bytes`, those between its SOF and its end: header, payload and CRC-32 (R386); the bytes say what it is.

Time. Every command but TICK_BOUNDARY carries `dt`, the slots that passed since the command before it (DESIGN CHOICE, log entry 3).
The other operands are what the table's row takes from outside: the party, the port or the link, an address, words,
and what the environment measured, received or read.
-/
namespace Sys2Proof

/-- The commands (spec/opcode_table.json). -/
inductive Instr where
  /-- REGISTER_WRITE (R11). A party writes a control-window word that has no row of its own, and the field acts according to its access code or is ignored and possibly counted as a lock violation. -/
  | registerWrite (dt : Nat) (party : Party) (addr : Addr) (v : Word)
  /-- SNAPSHOT_READ (R8). A party reads word 0 of a multi-word read-only value and captures the whole value into that party's snapshot. -/
  | snapshotRead (dt : Nat) (party : Party) (addr : Addr)
  /-- TICK_BOUNDARY (R22). The tick length count expires and the device performs the boundary actions in order at slot 0 of the new tick. -/
  | tickBoundary
  /-- URGENT_CHECK_POINT (R65). At every slot that is a multiple of 64 the device samples PFAIL#, FRZ and freeze requests and acts on pending mode changes. -/
  | urgentCheckPoint (dt : Nat)
  /-- RETAIN_ENTRY_COMPLETE (R147). The RETAIN entry sequence ends, and the device enters OFF, wakes on the short path, or stays in RETAIN by the PFAIL# level and wakes seen. -/
  | retainEntryComplete (dt : Nat)
  /-- WINDOW_ENTRY_START (R60). A window entry's first slot arrives and its task takes the entry's non-port slots. -/
  | windowEntryStart (dt : Nat) (entry : Nat)
  /-- WINDOW_ENTRY_END (R80). A window entry reaches its last slot; a carry entry's remaining work waits, and an unfinished must-finish entry counts an overrun. -/
  | windowEntryEnd (dt : Nat) (entry : Nat)
  /-- TICK_PIN_REFERENCE (R74). A reference edge on the TICK pin is captured and the length of the next tick is corrected by its phase error. -/
  | tickPinReference (dt : Nat)
  /-- HOLDOVER_ENTRY (R75). After ref_loss_ticks consecutive missed ticks the device enters holdover and fires TICK_REF_LOST. -/
  | holdoverEntry (dt : Nat)
  /-- TICK_OUT_EDGE (R76). With tick_out set the device drives TICK high at slot 3 and low at slot 35 of each tick. -/
  | tickOutEdge (dt : Nat)
  /-- READ (R165). A host port READ transaction returns words from the address with their status codes after the fixed dummy clocks. -/
  | read (dt : Nat) (port : Port) (head : List Byte) (deltas : List Nat) (cut : Bool)
  /-- WRITE (R165). A host port WRITE transaction delivers words with half-enables to consecutive addresses. -/
  | write (dt : Nat) (port : Port) (head : List Byte) (words : List WireWord)
  /-- READ_STATUS (R154). A port READ STATUS returns DEV_MODE and DEV_PWR repeatedly in every mode. -/
  | readStatus (dt : Nat) (port : Port) (head : List Byte) (deltas : List Nat) (cut : Bool)
  /-- READ_SFDP (R169). A port READ SFDP returns bytes of the 256-byte SFDP space. -/
  | readSfdp (dt : Nat) (port : Port) (head : List Byte) (deltas : List Nat)
  /-- RESET_ENABLE (R166). A RESET ENABLE arms the port's next RESET PORT. -/
  | resetEnable (dt : Nat) (port : Port) (head : List Byte)
  /-- RESET_PORT (R183). A RESET PORT after RESET ENABLE resets the port at the rising CS#, otherwise it counts as unknown. -/
  | resetPort (dt : Nat) (port : Port) (head : List Byte) (rise : Nat)
  /-- UNKNOWN_COMMAND (R166). An unknown opcode ends the device's part in the transaction and counts in DEV_BADCMD. -/
  | unknownCommand (dt : Nat) (port : Port) (head : List Byte)
  /-- PORT_WORD_WRITE (R175). A received full word is written in the first port slot of its bank at least 3 slots after its last byte, under its hold or register rules. -/
  | portWordWrite (dt : Nat) (port : Port)
  /-- PORT_WORD_READ (R181). A port reads a burst word from its bank at least 64 slots before driving it, through the checker. -/
  | portWordRead (dt : Nat) (port : Port)
  /-- PORT_RESET (R184). A low RST# held for 20 slots resets the port, resolving its merge entries, snapshots, semaphores, mailbox state and owned events. -/
  | portReset (dt : Nat) (port : Port)
  /-- PORT_READY (R183). The port accepts new transactions 1.000 µs after RST# rises or the RESET PORT ends. -/
  | portReady (dt : Nat) (port : Port)
  /-- HLD_APPEND_WRITE (R50). The pilot writes a new append pointer, which reopens, fills or leaves the append-only hold unchanged. -/
  | hldAppendWrite (dt : Nat) (hold : Fin 16) (value : BitVec 28)
  /-- MERGE_COMMIT (R195). A merge entry with both halves valid commits as one full word in the port's write slot. -/
  | mergeCommit (dt : Nat) (port : Port)
  /-- MERGE_AGE_OUT (R196). A merge entry still holding one half at the boundary two ticks after it opened commits by read-modify-write or is discarded. -/
  | mergeAgeOut (dt : Nat) (port : Port)
  /-- MERGE_RMW (R198). A lone-half commit reads the word and writes it merged in the port's next free slots, or is abandoned on an uncorrectable read. -/
  | mergeRmw (dt : Nat) (port : Port)
  /-- SCRUB_SLOT (R204). A scrubber slot of a bank is used for a waiting raw operation, a repair, a sweep read or write-back, or the long job in progress. -/
  | scrubSlot (dt : Nat) (bank : Fin 4) (fault : Code)
  /-- ECC_LOG_CLR (R213). Writing 0x0001 to ECC_LOG_CLR clears every log entry and the head. -/
  | eccLogClr (dt : Nat) (party : Party) (v : Word)
  /-- SCR_RATE_WRITE (R202). A write to SCR_RATE sets its shadow, clamped to SCR_LIMIT. -/
  | scrRateWrite (dt : Nat) (party : Party) (v : Word)
  /-- ECC_TEST_WRITE (R217). A write of raw_en takes effect only in SERVICE. -/
  | eccTestWrite (dt : Nat) (party : Party) (v : Word)
  /-- RAW_READ (R217). ECC_RAW_CMD op 01 starts a raw read of the code word into ECC_RAW_DATA and ECC_RAW_CHK. -/
  | rawRead (dt : Nat) (party : Party)
  /-- RAW_WRITE (R217). ECC_RAW_CMD op 10 starts a write of the whole raw code word. -/
  | rawWrite (dt : Nat) (party : Party)
  /-- RAW_CHECK_WRITE (R217). ECC_RAW_CMD op 11 starts a write of the check and parity bits keeping the stored data bits. -/
  | rawCheckWrite (dt : Nat) (party : Party)
  /-- PAGE_STORE_READ (R227). The keel store reads a word of a dirty page into a page buffer in its slot of the page's bank. -/
  | pageStoreRead (dt : Nat)
  /-- PAGE_STORE_COMMIT (R231). A page's 16,000-slot programming ends and verifies, and the keel store commits it, may start a map commit and begins the next page. -/
  | pageStoreCommit (dt : Nat) (verified : Bool)
  /-- MAP_COMMIT_COMPLETE (R229). A 128,000-slot map commit ends, making covered page stores durable and freeing previous copies. -/
  | mapCommitComplete (dt : Nat)
  /-- SEM_LOCAL_CLAIM (R245). A write with req 1 claims a local semaphore, or sets the writer's want bit if another party holds it. -/
  | semLocalClaim (dt : Nat) (party : Party) (n : Fin 64)
  /-- SEM_LOCAL_RELEASE (R246). A write with req 0 by the owner frees a local semaphore and fires the want events, otherwise it is counted as a bad release. -/
  | semLocalRelease (dt : Nat) (party : Party) (n : Fin 64)
  /-- SEM_RING_CLAIM (R249). A write with req 1 sends a ring semaphore claim to the anchor or fails locally at once. -/
  | semRingClaim (dt : Nat) (party : Party) (n : Fin 16)
  /-- SEM_RING_RELEASE (R250). A write with req 0 by the owner frees the ring semaphore locally and sends the release to the anchor. -/
  | semRingRelease (dt : Nat) (party : Party) (n : Fin 16)
  /-- RING_CLAIM_TIMEOUT (R249). A ring claim with no answer within 2 ticks ends, its pending bit clears and DEV_RSEMTO counts it. -/
  | ringClaimTimeout (dt : Nat) (n : Fin 16)
  /-- MBX_POST (R256). A sender's write to MBX_POST publishes len staged words as one message or is refused. -/
  | mbxPost (dt : Nat) (party : Party) (ch : Fin 6) (v : Word)
  /-- MBX_TAKE (R258). A receiver's write of 1 to MBX_TAKE removes the head message and may fire the drain event. -/
  | mbxTake (dt : Nat) (party : Party) (ch : Fin 6)
  /-- MBX_ACK_WRITE (R264). The receiver writes a return code to MBX_ACK, setting ack_valid and stopping the ACK timer. -/
  | mbxAckWrite (dt : Nat) (party : Party) (ch : Fin 6) (code : Word)
  /-- MBX_CLR_STALE (R267). The receiver writes stale_clr to clear the stale flag. -/
  | mbxClrStale (dt : Nat) (party : Party) (ch : Fin 6)
  /-- MBX_CLR_SNDRST (R268). The receiver writes sndrst_clr to clear the sender_reset flag. -/
  | mbxClrSndrst (dt : Nat) (party : Party) (ch : Fin 6)
  /-- MBX_CLR_ACK (R264). The sender writes ack_clr to clear ack_valid and ack_stale. -/
  | mbxClrAck (dt : Nat) (party : Party) (ch : Fin 6)
  /-- MBX_CFG_WRITE (R260). A write of MBX_CFG sets notify or confirm, firing MBX_IN when notify turns on with a message queued. -/
  | mbxCfgWrite (dt : Nat) (party : Party) (ch : Fin 6) (v : Word)
  /-- MBX_ACK_TIMEOUT (R265). An ACK timer expires, 0x3FF0 is written to MBX_ACK and MBX_ACKTO fires or the pilot is woken. -/
  | mbxAckTimeout (dt : Nat) (ch : Fin 6)
  /-- COMMAND_GATE (R275). The gate examines a command that has become next and refuses it with a code or admits it and wakes the pilot. -/
  | commandGate (dt : Nat) (port : Port)
  /-- COMMAND_ACCEPT (R276). The pilot takes an admitted command, checks its arguments and starts its action. -/
  | commandAccept (dt : Nat) (port : Port)
  /-- TALLY_INC (R282). The pilot queues a tally increment to be applied in the next tally update entry. -/
  | tallyInc (dt : Nat) (port : Port)
  /-- TALLY_READ (R282). The pilot replies with the tally value in effect at acceptance. -/
  | tallyRead (dt : Nat) (port : Port)
  /-- TALLY_ATTEST (R374). The device writes a signed 55-word attestation of the tally to the destination. -/
  | tallyAttest (dt : Nat) (port : Port)
  /-- TALLY_RECOVER (R377). The device asks its rope team for replicas of a tally to rebuild it. -/
  | tallyRecover (dt : Nat) (port : Port)
  /-- TALLY_RECOVER_WAIT_END (R377). After 16 ticks the agreed value is found from verified replicas and the tally is updated or the command refused. -/
  | tallyRecoverWaitEnd (dt : Nat) (port : Port)
  /-- RECORD_FREEZE (R282). The pilot delivers a freeze request to the check point logic, or counts it in the open record during HOLD. -/
  | recordFreeze (dt : Nat) (port : Port)
  /-- RECORD_LIST (R367). The pilot writes directory entries of the records from the named sequence. -/
  | recordList (dt : Nat) (port : Port)
  /-- RECORD_READ_CERT (R364). The pilot writes the device's X.509 certificate to the destination. -/
  | recordReadCert (dt : Nat) (port : Port)
  /-- RETIRE_PAGE (R214). The device starts copying a page into a spare of its bank. -/
  | retirePage (dt : Nat) (port : Port)
  /-- RETIRE_BANK (R216). The device commits a bank retirement in SERVICE. -/
  | retireBank (dt : Nat) (port : Port)
  /-- SCRUB_RANGE (R205). The range engine takes a request to read and check every array word of an address range. -/
  | scrubRange (dt : Nat) (port : Port)
  /-- CONFIG_UPDATE_BEGIN (R119). The pilot opens an image update for the port and erases the target slot. -/
  | configUpdateBegin (dt : Nat) (port : Port)
  /-- FLASH_ERASE_COMPLETE (R119). The erase of the target slot completes and the pilot replies to BEGIN. -/
  | flashEraseComplete (dt : Nat) (ok : Bool)
  /-- CONFIG_UPDATE_DATA (R120). The pilot programs up to 21 bytes of the new copy at the contiguous offset. -/
  | configUpdateData (dt : Nat) (port : Port) (ok : Bool)
  /-- CONFIG_UPDATE_COMMIT (R119). The pilot reads the target slot back and checks it. -/
  | configUpdateCommit (dt : Nat) (port : Port)
  /-- UPDATE_COMMIT_COMPLETE (R119). The readback checks end and the trailer magic is programmed and the pilot replies, or the commit fails with its code. -/
  | updateCommitComplete (dt : Nat) (readback : List Byte) (ok : Bool)
  /-- PEER_SEND (R418). The device sends a PEER frame with the payload to the destination node. -/
  | peerSend (dt : Nat) (port : Port)
  /-- PEER_DELIV_TIMEOUT (R418). No DELIV arrives within 16 ticks and PEER_SEND is answered 0x0602. -/
  | peerDelivTimeout (dt : Nat) (port : Port)
  /-- SLEEP_REQUEST (R282). An admitted sleep request makes the device enter RETAIN at the next check point at which it acts. -/
  | sleepRequest (dt : Nat) (port : Port)
  /-- ENTER_SERVICE_STEP0 (R284). ENTER_SERVICE step 0 draws a fresh nonce and replies with it. -/
  | enterServiceStep0 (dt : Nat) (port : Port)
  /-- ENTER_SERVICE_STEP1 (R286). ENTER_SERVICE step 1 checks the service token and, if it passes, requests SERVICE. -/
  | enterServiceStep1 (dt : Nat) (port : Port)
  /-- LEAVE_SERVICE (R287). An accepted LEAVE_SERVICE requests return to the entry mode at the next check point. -/
  | leaveService (dt : Nat) (port : Port)
  /-- LOGBOOK_FREEZE (R475). The command requests that the logbook window ending with this tick be frozen. -/
  | logbookFreeze (dt : Nat) (port : Port)
  /-- LOGBOOK_EXPORT (R476). The pilot copies the frozen or live logbook with an export header to the destination. -/
  | logbookExport (dt : Nat) (port : Port)
  /-- REPLAY_START (R477). The pilot checks a named export copy and the logbook fetches its first entry. -/
  | replayStart (dt : Nat) (port : Port)
  /-- REPLAY_FETCH_COMPLETE (R477). The first entry has been fetched and the pilot replies in the last slot of the tick. -/
  | replayFetchComplete (dt : Nat)
  /-- REPLAY_PLAYED_INPUT (R479). A played input record takes effect at its logged slot in place of the live input. -/
  | replayPlayedInput (dt : Nat)
  /-- PEER_INBOX_DELIVER (R283). A held peer message is posted on the port's return channel once unreserved words are free. -/
  | peerInboxDeliver (dt : Nat) (port : Port)
  /-- PILOT_EXCEPTION (R289). The pilot takes an exception, and the frame goes to the stack or, with an invalid SP, to the lifeboat frame with a pilot fault. -/
  | pilotException (dt : Nat) (vector : Byte) (pc : BitVec 28) (sp : BitVec 28) (frame : List Word)
  /-- PILOT_WINDOW_MISSED (R290). An acceptance or completion window ends without a TAKE or return code, and the lifeboat frame is written. -/
  | pilotWindowMissed (dt : Nat) (port : Port) (pc : BitVec 28) (sp : BitVec 28)
  /-- TALLY_UPDATE (R371). A tally update entry applies the accepted increments of a tally as one update writing the unselected copy. -/
  | tallyUpdate (dt : Nat) (t : Fin 16)
  /-- EVENT_RECORD_WRITE (R301). The engine writes one word of a queued event record in a free engine slot, posting it or dropping it for a full queue. -/
  | eventRecordWrite (dt : Nat)
  /-- EVC_CLAIM (R306). A read of EVC_CLAIMn claims a pending unclaimed source for the reader or returns 0x3FFF. -/
  | evcClaim (dt : Nat) (party : Party) (n : Fin 64)
  /-- EVC_COMPLETE (R307). The owner writes n to complete source n, clearing active. -/
  | evcComplete (dt : Nat) (party : Party) (v : Word)
  /-- EVC_PEND_WRITE (R310). A write sets each pending bit of the word to the value written. -/
  | evcPendWrite (dt : Nat) (party : Party) (w : Fin 5) (v : Word)
  /-- EVC_QRD_WRITE (R303). The queue's target writes its read index past read records, returning units and possibly releasing the interrupt. -/
  | evcQrdWrite (dt : Nat) (party : Party) (queue : Party) (v : Word)
  /-- INTAKE_READ (R319). In the intake entry the packer reads an enabled channel's intake word as its sample or codes it missing. -/
  | intakeRead (dt : Nat) (ch : Fin 16)
  /-- PACKER_CODING (R335). In a coding entry the packer stages a channel's sample and codes and writes any block it closes. -/
  | packerCoding (dt : Nat) (ch : Fin 16)
  /-- PKR_ARM_WRITE (R343). An authorised party writes 1 to PKR_ARM to arm the pending descriptor. -/
  | pkrArmWrite (dt : Nat) (party : Party) (ch : Fin 16)
  /-- SIGNATURE_DONE (R362). The seal engine completes a signature, writes the trailer or attestation or replica, and takes its next work. -/
  | signatureDone (dt : Nat)
  /-- AUDIT_VERIFY_DONE (R365). The audit finishes verifying one sealed record and marks it MISMATCH if it fails. -/
  | auditVerifyDone (dt : Nat)
  /-- REPAIR_REPLICA_TIMEOUT (R366). No passing replica arrives within 64 ticks and the record stays MISMATCH. -/
  | repairReplicaTimeout (dt : Nat)
  /-- HARNESS_MEASUREMENT (R447). Every 1 ms the monitor measures each harness input and changes its class after two matching measurements. -/
  | harnessMeasurement (dt : Nat) (m : Measurement)
  /-- FRZ_WIRE_TEST (R453). The monitor pulses an FRZ wire and compares it with 2.5 V to detect an open wire. -/
  | frzWireTest (dt : Nat) (wire : FrzWire) (crossed : Bool)
  /-- FRZ_PAIR_FILTERED (R452). The raw FRZ pair state has held a new value for t_filt and the filtered state changes, a change from IDLE to TRIG being a valid trigger. -/
  | frzPairFiltered (dt : Nat) (pair : PairState)
  /-- ON_HIGH (R128). The filtered ON level becomes high and the device acts on it in its current mode. -/
  | onHigh (dt : Nat)
  /-- ON_LOW (R128). The filtered ON level becomes low and the device latches an off request or acts on it in its current mode. -/
  | onLow (dt : Nat)
  /-- PFAIL_ASSERTED (R129). The filtered PFAIL# becomes asserted, ending a start at once or leading to STORE or OFF. -/
  | pfailAsserted (dt : Nat)
  /-- PFAIL_DEASSERTED (R131). The filtered PFAIL# becomes deasserted, letting a waiting wake stimulus leave OFF. -/
  | pfailDeasserted (dt : Nat)
  /-- PORT_CS_WAKE (R149). A falling edge of A_CS# or B_CS# in RETAIN wakes the device when enabled. -/
  | portCsWake (dt : Nat) (port : Port)
  /-- WAKE_TIMER_EXPIRY (R155). The RETAIN wake timer reaches its seconds and wakes the device when enabled. -/
  | wakeTimerExpiry (dt : Nat)
  /-- WAKE_ATTEMPT_START (R135). A WAKE attempt asserts INH and starts the regulator, oscillator and PLL. -/
  | wakeAttemptStart (dt : Nat)
  /-- WAKE_ATTEMPT_TIMEOUT (R142). An attempt lacks a condition after 2 ms, records it and schedules a retry or enters cause 5. -/
  | wakeAttemptTimeout (dt : Nat) (missing : WakeCond)
  /-- WAKE_COMPLETE (R135). PLL lock ends WAKE, leading to LOAD or, on the short path with a matching CRC, to RUN. -/
  | wakeComplete (dt : Nat) (flash : FlashId) (headerA : List Byte) (headerB : List Byte)
  /-- COPY_CHECK_COMPLETE (R114). The continuous read of a candidate copy ends and its checks decide whether it is loaded or the next candidate is read. -/
  | copyCheckComplete (dt : Nat) (copy : List Byte)
  /-- PHASE_BOUNDARY (R139). A phase boundary of the start arrives and a latched off request sends the device to OFF. -/
  | phaseBoundary (dt : Nat)
  /-- FILL_COMPLETE (R200). FILL has zeroed the array and recalled persistent holds and the device enters TEST. -/
  | fillComplete (dt : Nat)
  /-- TEST_COMPLETE (R138). The start-up self-test ends, leading to RUN at the next tick or to LIMP with cause 3. -/
  | testComplete (dt : Nat) (passed : Bool)
  /-- VDD_POWER_ON (R134). VDD rises above the power-on threshold and the always-on domain starts in OFF. -/
  | vddPowerOn (dt : Nat)
  /-- VDD_BROWN_OUT (R498). VDD falls below the brown-out threshold and both domains stop in the same slot. -/
  | vddBrownOut (dt : Nat)
  /-- VDDIO_RISE (R503). A port's VDDIO rises through 1.2 V and the port selects its I/O range. -/
  | vddioRise (dt : Nat) (port : Port) (highRange : Bool)
  /-- VDDIO_FALL (R503). A port's VDDIO falls below 1.2 V and the port is reset with its pins at high impedance. -/
  | vddioFall (dt : Nat) (port : Port)
  /-- CLOCK_LOSS (R499). The crystal stops or the PLL loses lock and the device treats PFAIL# as asserted until OFF. -/
  | clockLoss (dt : Nat)
  /-- TEST_PIN_HIGH (R500). The TEST ball reads high and the device treats PFAIL# as asserted and ON as low. -/
  | testPinHigh (dt : Nat)
  /-- JTAG_EXTEST (R508). The EXTEST instruction drives the boundary register in OFF, and acts as BYPASS otherwise. -/
  | jtagExtest (dt : Nat) (cells : List Bool)
  /-- JTAG_IDCODE (R508). The IDCODE instruction reads 0x1E01456B. -/
  | jtagIdcode (dt : Nat)
  /-- JTAG_SAMPLE_PRELOAD (R508). The SAMPLE/PRELOAD instruction samples the boundary register in OFF, and acts as BYPASS otherwise. -/
  | jtagSamplePreload (dt : Nat) (cells : List Bool)
  /-- JTAG_BYPASS (R508). The BYPASS instruction, or any unlisted code, selects the bypass register. -/
  | jtagBypass (dt : Nat)
  /-- JTAG_TEST_LOGIC_RESET (R508). TRST# low holds the TAP in Test-Logic-Reset with IDCODE selected. -/
  | jtagTestLogicReset (dt : Nat)
  /-- LINK_DETECT (R381). Every 10 ms a link probes its line and finds a receiver, a crossed transmitter or nothing. -/
  | linkDetect (dt : Nat) (link : Link) (result : ProbeResult)
  /-- LINK_TRAINING_STEP (R380). A training step's end condition is met and the link moves to the next step or becomes ACTIVE. -/
  | linkTrainingStep (dt : Nat) (link : Link) (inverted : Bool)
  /-- LINK_TRAINING_TIMEOUT (R380). A training step exceeds its 100 µs limit and the link returns to step 1. -/
  | linkTrainingTimeout (dt : Nat) (link : Link)
  /-- LINK_LOSS_OF_SIGNAL (R384). An ACTIVE link receives no signal for 1 µs, LINK_LOS fires and its hop breaks. -/
  | linkLossOfSignal (dt : Nat) (link : Link)
  /-- LINK_RETRY_TIMEOUT (R394). The oldest unacknowledged frame has had no ACK for 4 µs and the sender resends from it. -/
  | linkRetryTimeout (dt : Nat) (link : Link)
  /-- RETRAIN_TIMEOUT (R395). A retrain does not complete within 1 ms, the hop breaks and training restarts at step 1. -/
  | retrainTimeout (dt : Nat) (link : Link)
  /-- LINK_TRANSMIT (R392). A link transmitter chooses and starts its next ordered set or frame, taking a credit or stalling. -/
  | linkTransmit (dt : Nat) (link : Link)
  /-- THROUGH_FRAME_FORWARD (R391). A frame not taken by this node is forwarded cut-through when its credit and link are free. -/
  | throughFrameForward (dt : Nat) (link : Link) (bytes : List Byte)
  /-- PING (R383). A received PING is answered with a PONG. -/
  | ping (dt : Nat) (link : Link) (token : Byte)
  /-- PONG_SEND (R383). The PONG leaves at the first character boundary at least 640 cycles after the PING arrived. -/
  | pongSend (dt : Nat) (link : Link) (turn : Fin 10)
  /-- PONG (R383). A received PONG gives one hop delay measurement. -/
  | pong (dt : Nat) (link : Link) (token : Byte) (delay16 : Nat) (turn : Fin 10)
  /-- ACK (R394). A received ACK releases the named frame and earlier frames from the sender's retry store. -/
  | ack (dt : Nat) (link : Link) (seq : BitVec 12)
  /-- NAK (R394). A received NAK makes the sender resend from the named frame in original order. -/
  | nak (dt : Nat) (link : Link) (seq : BitVec 12)
  /-- CRD (R391). A received CRD returns credits of a class to the sender. -/
  | crd (dt : Nat) (link : Link) (cls : Fin 4) (count : Byte)
  /-- MARK (R402). A received MARK is checked, forwarded with updated acc and hops, and taken as the tick reference. -/
  | mark (dt : Nat) (link : Link) (tick : BitVec 56) (acc : BitVec 24) (hops : BitVec 10) (check : BitVec 16) (fwd : Nat)
  /-- SLEEP (R432). A received SLEEP ordered set marks the physical link asleep. -/
  | sleep (dt : Nat) (link : Link)
  /-- PASSON (R433). A received PASSON ends the link to the passing node and retrains through its repeater. -/
  | passon (dt : Nat) (link : Link)
  /-- PASSOFF (R433). A received PASSOFF restarts training with the node that sent it. -/
  | passoff (dt : Nat) (link : Link)
  /-- ENUMERATION_START (R396). The anchor begins enumeration when both links are ACTIVE or 100 ms after RUN began. -/
  | enumerationStart (dt : Nat)
  /-- ENUM (R397). A received ENUM assigns the node its ID and logical links and is passed on. -/
  | enum (dt : Nat) (link : Link) (bytes : List Byte)
  /-- ENUM_HOLD_TIMEOUT (R397). A held ENUM's downstream link is not ACTIVE after 100 ms and the node turns back with ENUM_END. -/
  | enumHoldTimeout (dt : Nat)
  /-- ENUM_END (R397). A received ENUM_END is relayed upstream or ends a direction of enumeration at the anchor. -/
  | enumEnd (dt : Nat) (link : Link) (bytes : List Byte)
  /-- ENUM_RESTART_TIMEOUT (R399). The anchor receives neither its ENUM nor an ENUM_END within 1 s and restarts enumeration. -/
  | enumRestartTimeout (dt : Nat)
  /-- RINGMAP (R397). A received RINGMAP records d_max, u_min and the enumeration number and fires RING_ENUM_DONE. -/
  | ringmap (dt : Nat) (link : Link) (bytes : List Byte)
  /-- FOLD (R406). A received FOLD enters or removes a broken hop in the break list and fires RING_FOLD or RING_HEAL. -/
  | fold (dt : Nat) (link : Link) (bytes : List Byte)
  /-- REP (R413). A received REP frame writes record words into a guest slot, sending BELAY when the copy completes. -/
  | rep (dt : Nat) (link : Link) (bytes : List Byte)
  /-- BELAY (R414). A received BELAY moves the member to BELAYED and may make the record ROPED. -/
  | belay (dt : Nat) (link : Link) (bytes : List Byte)
  /-- BELAY_WAIT_TIMEOUT (R414). No BELAY arrives within 64 ticks of the last frame and the member returns to WAIT. -/
  | belayWaitTimeout (dt : Nat) (member : Fin 4)
  /-- QUERY (R415). A received QUERY is answered with the held record copy or tally replica, or with QNONE. -/
  | query (dt : Nat) (link : Link) (bytes : List Byte)
  /-- TREP (R376). A received TREP is kept as a guest tally replica or used by a recovery. -/
  | trep (dt : Nat) (link : Link) (bytes : List Byte)
  /-- QNONE (R415). A received QNONE tells the requester that the member holds no copy. -/
  | qnone (dt : Nat) (link : Link) (bytes : List Byte)
  /-- SEMCLAIM (R416). The anchor takes a ring semaphore claim in arrival order and answers with SEMSTATE. -/
  | semclaim (dt : Nat) (link : Link) (bytes : List Byte)
  /-- SEMREL (R417). The anchor takes a ring semaphore release from the owner and answers with SEMSTATE. -/
  | semrel (dt : Nat) (link : Link) (bytes : List Byte)
  /-- SEMSTATE (R416). A received SEMSTATE updates the node's SEM_RING word and answers a pending claim. -/
  | semstate (dt : Nat) (link : Link) (bytes : List Byte)
  /-- PEER (R283). A received PEER frame is answered with DELIV and its message posted or held in the inbox or dropped. -/
  | peer (dt : Nat) (link : Link) (bytes : List Byte)
  /-- DELIV (R418). A received DELIV completes PEER_SEND with 0x0000. -/
  | deliv (dt : Nat) (link : Link) (bytes : List Byte)
  /-- KEEP (R428). A received KEEP updates t_last when its reasons are non-zero and clears agreed. -/
  | keep (dt : Nat) (link : Link) (bytes : List Byte)
  /-- KEEP_SEND (R427). In its keep-alive entry a numbered node sends a KEEP or a parting KEEP. -/
  | keepSend (dt : Nat)
  /-- PASS_ADDRESSED_FRAME (R435). A passing node sees an intact frame addressed to it and wakes when the pattern is enabled. -/
  | passAddressedFrame (dt : Nat) (link : Link) (bytes : List Byte)
  /-- PASS_TO_LISTEN (R439). Both receivers of a passing node lose signal for 1 ms and its links take LISTEN. -/
  | passToListen (dt : Nat)
  /-- BEACON_DETECTED (R438). A LISTEN receiver detects a beacon, relays it and wakes the node when enabled. -/
  | beaconDetected (dt : Nat) (link : Link)
  /-- BEACON_START (R440). A node with reasons whose link has waited 10 ms at training step 2 drives the beacon. -/
  | beaconStart (dt : Nat) (link : Link)
  /-- BEACON_DRIVE_END (R438). A driven or relayed beacon ends after wake_ms. -/
  | beaconDriveEnd (dt : Nat) (link : Link)
  /-- LOG_CAPTURE_WRITE (R471). A captured record passes from the capture queue into the logbook ring in the logbook's slot. -/
  | logCaptureWrite (dt : Nat)
  /-- TEST_PIN_LOW (R500). The TEST ball returns low, and the device stops treating PFAIL# as asserted and ON as low, so OFF may be left under R131. -/
  | testPinLow (dt : Nat)
  /-- FRAME_CRC_FAILURE (R393). A link receives a frame whose CRC fails or that ends in ABORT, discards it, counts RNG_CRCERR and sends one NAK naming the next expected frame. -/
  | frameCrcFailure (dt : Nat) (link : Link) (bytes : List Byte) (aborted : Bool)
  /-- MALFORMED_FRAME (R389). A frame whose CRC passes but whose type is 0, class or reserved bits are wrong, or whose length is bad is discarded, counted in RNG_MALFORM and still acknowledged. -/
  | malformedFrame (dt : Nat) (link : Link) (bytes : List Byte)
  /-- UNKNOWN_ORDERED_SET (R385). A receiver meets a K28.5 ordered set with a code it does not know, ignores it and counts it in RNG_MALFORM. -/
  | unknownOrderedSet (dt : Nat) (link : Link) (code : Byte)
  /-- PILOT_HOLD_WRITE (R47). The pilot writes an array word of a hold, free of the writers, write-once and append rules, setting a vault written state, advancing an append pointer or setting an intake fresh flag. -/
  | pilotHoldWrite (dt : Nat) (addr : Addr) (v : Word)
  deriving DecidableEq, Repr

end Sys2Proof
end

