-- ==== Sys2Proof/Decode.lean ====
section
/-!
DEFINITION. What bits spell. The table's rows give no bits (every row's fields are empty), so no word of the table's numbering
spells a command. The bytes that open a port transaction do: the opcode, in 8D-8D-8D with its complement, and the address
(R160, R161, R165, R166). The opcodes of pilot messages (R280) are decoded in Machine/Gate.lean.
-/
namespace Sys2Proof

/-- No row of the table gives bits, so every word is refused (none). -/
def decodeTableWord (_nbits _w : Nat) : Option Instr := none

/-! ### The header of a port transaction -/

/-- The opcode of each port command (R165). -/
def PortOp.opcode : PortOp → Byte
  | .readStatus => 0x05#8
  | .read => 0x0B#8
  | .write => 0x02#8
  | .readSfdp => 0x5A#8
  | .resetEnable => 0x66#8
  | .resetPort => 0x99#8

/-- The port command of an opcode; any other opcode is unknown (R165, R166). -/
def PortOp.ofByte (b : Byte) : Option PortOp :=
  [PortOp.readStatus, .read, .write, .readSfdp, .resetEnable, .resetPort].find? fun o => o.opcode == b

/-- The address bytes of a command: 3 in 1S-1S-1S and 4 in 8D-8D-8D, where READ STATUS has 4 that are ignored (R161, R165). -/
def PortOp.addrBytes (oneS : Bool) : PortOp → Nat
  | .read | .write | .readSfdp => if oneS then 3 else 4
  | .readStatus => if oneS then 0 else 4
  | .resetEnable | .resetPort => 0

/-- The dummy clocks of a command, fixed in every mode and under every load (R165, R167). -/
def PortOp.dummyClocks (oneS : Bool) : PortOp → Nat
  | .read | .readSfdp => if oneS then 8 else 16
  | .readStatus => if oneS then 0 else 16
  | .write | .resetEnable | .resetPort => 0

/-- The value of address bytes, the most significant first (R161). -/
def beBytes (bs : List Byte) : Nat := bs.foldl (fun v b => 256 * v + b.toNat) 0

/-- What the bytes that a transaction opens with spell: no whole opcode, an opcode that is unknown, a command whose address CS#
cut short, or a command with its address. -/
inductive Head where
  | none
  | unknown
  | cut (op : PortOp)
  | whole (op : PortOp) (addr : Nat)
  deriving DecidableEq, Repr

/-- An opcode and the bytes after it. -/
def headOf (oneS : Bool) (b : Byte) (addr : List Byte) : Head :=
  match PortOp.ofByte b with
  | Option.none => .unknown
  | some op => if addr.length < op.addrBytes oneS then .cut op else .whole op (beBytes (addr.take (op.addrBytes oneS)))

/-- The header of a transaction as the port's protocol samples it: one opcode byte in 1S-1S-1S; in 8D-8D-8D the opcode and its
bitwise complement, without which the command is unknown (R158, R160). -/
def decodeHead : Bool → List Byte → Head
  | true, b :: addr => headOf true b addr
  | false, b :: c :: addr => if c = ~~~b then headOf false b addr else .unknown
  | _, _ => .none

/-- The header of a command in a protocol, with an address in as many bytes as it takes (R160, R161). -/
def encodeHead (oneS : Bool) (op : PortOp) (addr : Nat) : List Byte :=
  let n := op.addrBytes oneS
  let bytes := (List.range n).map fun i => BitVec.ofNat 8 (addr / 256 ^ (n - 1 - i))
  if oneS then op.opcode :: bytes else op.opcode :: ~~~op.opcode :: bytes

/-- The header spells a command in one of the two protocols. -/
def headSpells (op : PortOp) (head : List Byte) : Bool :=
  let is : Head → Bool := fun h => match h with
    | .cut o => o == op
    | .whole o _ => o == op
    | _ => false
  is (decodeHead true head) || is (decodeHead false head)

/-- The header spells no command in one of the two protocols. -/
def headUnknown (head : List Byte) : Bool :=
  decide (decodeHead true head = .unknown) || decide (decodeHead false head = .unknown)

end Sys2Proof
end

