-- ==== Sys2Proof/Machine/Types.lean ====
section
/-!
DEFINITION. The closed sets of names and the small records the state is made of: modes, timetables, owners, events,
mailbox messages, records, tallies, links, log records. Each type cites the rule it writes down. Default values are
reset values (see State.lean).
-/
namespace Sys2Proof.Machine
open Sys2Proof

/-- The twelve modes (06_modes_and_power, The twelve modes). -/
inductive Mode where
  | off | retain | wake | load | fill | test | run | hold | store | limp | service | replay
  deriving DecidableEq, Repr

/-- The mode code shown in DEV_MODE. -/
def Mode.code : Mode → Nat
  | .off => 0 | .retain => 1 | .wake => 2 | .load => 3 | .fill => 4 | .test => 5 | .run => 6 | .hold => 7
  | .store => 8 | .limp => 9 | .service => 10 | .replay => 11

/-- The modes that use an image timetable (R72, R129): RUN, HOLD, STORE, LIMP, SERVICE, REPLAY. -/
def Mode.timetabled : Mode → Bool
  | .run | .hold | .store | .limp | .service | .replay => true
  | _ => false

/-- The modes in which the always-on responder answers (R154). -/
def Mode.responder : Mode → Bool
  | .off | .retain | .wake | .load | .fill => true
  | _ => false

/-- The timetable shown in TT_ACTIVE (R83). -/
inductive TtName where
  | run | hold | store | none
  deriving DecidableEq, Repr

/-- The coding of TT_ACTIVE. -/
def TtName.code : TtName → Nat
  | .run => 0 | .hold => 1 | .store => 2 | .none => 3

/-- The task of a window entry (R93). -/
inductive Task where
  | intake | coding | tally | signature | trickle | checkpoint | keepAlive | replication
  deriving DecidableEq, Repr

/-- The task code of R93; codes 0 and 9 to 15 are reserved. -/
def Task.ofCode : Nat → Option Task
  | 1 => some .intake | 2 => some .coding | 3 => some .tally | 4 => some .signature | 5 => some .trickle
  | 6 => some .checkpoint | 7 => some .keepAlive | 8 => some .replication | _ => none

/-- The owner each task code fixes (R93). -/
def Task.owner : Task → Nat
  | .intake | .coding => 3 | .tally => 9 | .signature => 4 | .trickle | .checkpoint => 7
  | .keepAlive | .replication => 5

/-- The must-finish tasks (R93); the others carry. -/
def Task.mustFinish : Task → Bool
  | .intake | .coding | .tally => true
  | _ => false

/-- A window entry (R61, R92). An end-anchored entry keeps its lead in `first` and 0 in `last`. -/
structure Window where
  owner : Nat
  banks : Nat
  endAnchored : Bool
  task : Task
  first : Nat
  last : Nat
  deriving DecidableEq, Repr

/-- One timetable: a rota of 32 owner codes for each of the four banks, and its window list (R59, R60). -/
structure Timetable where
  rota : List (List Nat) := []
  windows : List Window := []
  deriving DecidableEq, Repr

/-- The wake sources of DEV_PWR.wake_src (R155). -/
inductive WakeSrc where
  | none | wakePin | up | dn | portCs | pfail | timer | on
  deriving DecidableEq, Repr

/-- The coding of DEV_PWR.wake_src. -/
def WakeSrc.code : WakeSrc → Nat
  | .none => 0 | .wakePin => 1 | .up => 2 | .dn => 3 | .portCs => 4 | .pfail => 5 | .timer => 6 | .on => 7

/-- What the device does with a ball of the configuration flash or of the tick (R152). -/
inductive Pad where
  | hiZ | pullUp | low | high | driven
  deriving DecidableEq, Repr

/-- The write policies of a hold (R42). -/
inductive Policy where
  | free | append | vault | tally
  deriving DecidableEq, Repr

/-- The coding of HLD_ATTR.policy (R58). -/
def Policy.ofCode : Nat → Policy
  | 1 => .append | 2 => .vault | 3 => .tally | _ => .free

/-- The inverse of `Policy.ofCode`. -/
def Policy.code : Policy → Nat
  | .free => 0 | .append => 1 | .vault => 2 | .tally => 3

/-- One hold's registers (R42, R58); `pages = 0` is an undeclared hold (R57). -/
structure Hold where
  base : Nat := 0
  pages : Nat := 0
  persistent : Bool := false
  policy : Policy := .free
  sealed : Bool := false
  rope : Nat := 0
  writeA : Bool := false
  writeB : Bool := false
  append : Nat := 0
  refused : Nat := 0
  deriving DecidableEq, Repr

/-- The outcome of a checked read (R188): clean, corrected at a location, or uncorrectable. The syndrome and the
parity are kept for the error log. -/
inductive Check where
  | clean | corrected | uncorrectable
  deriving DecidableEq, Repr

/-- Where a corrected error lies (R188, R212). -/
inductive Locus where
  | none | data | check | parity | multiple
  deriving DecidableEq, Repr

/-- The coding of the error log's location field (R212). -/
def Locus.code : Locus → Nat
  | .none => 0 | .data => 1 | .check => 2 | .parity => 3 | .multiple => 4

/-- What the checker makes of one code word (R188). -/
structure Decoded where
  data : Word
  out : Check
  syndrome : Nat
  parity : Bool
  locus : Locus
  deriving DecidableEq, Repr

/-- The kinds of error log entries (R212). -/
inductive LogKind where
  | corrected | uncorrectable | mergeAbandoned | stripeFail | pageRetired | bankRetired
  deriving DecidableEq, Repr

/-- The coding of the kind field (R212). -/
def LogKind.code : LogKind → Nat
  | .corrected => 0 | .uncorrectable => 1 | .mergeAbandoned => 2 | .stripeFail => 3 | .pageRetired => 4
  | .bankRetired => 5

/-- An error log entry (R212). -/
structure ErrEntry where
  addr : Nat
  owner : Nat
  kind : LogKind
  syndrome : Nat
  parity : Bool
  locus : Locus
  repeats : Nat
  tick : Nat
  deriving DecidableEq, Repr

/-- A merge entry (R194): an address, its two halves with their valid bits, and the tick in which it opened. -/
structure MergeEntry where
  addr : Nat
  lo : Option (BitVec 7)
  hi : Option (BitVec 7)
  tick : Nat
  deriving DecidableEq, Repr

/-- A lone-half commit (R198): waiting for its read, or, with `base`, for its write. `stage` marks the entry that an
eviction put into the port's commit stage (R197). -/
structure Rmw where
  addr : Nat
  lo : Option (BitVec 7)
  hi : Option (BitVec 7)
  base : Option Word
  stage : Bool
  /-- The absolute slot from which its slots are counted (R198). -/
  since : Nat
  deriving DecidableEq, Repr

/-- Words a port has received and not yet written, in program order (R174, R175): a full word with the slot of its last
byte, or a merge entry whose second half has arrived (R195). -/
inductive WriteItem where
  | full (addr : Nat) (data : Word) (at' : Nat)
  | merged (addr : Nat) (at' : Nat)
  deriving DecidableEq, Repr

/-- The address of a word that waits for its slot. -/
def WriteItem.addr : WriteItem → Nat
  | .full a _ _ => a
  | .merged a _ => a

/-- The slot of its last byte. -/
def WriteItem.arrived : WriteItem → Nat
  | .full _ _ t => t
  | .merged _ t => t

/-- A word of a WRITE that has yet to cross the wire (R164, R173): its address, its bytes, and the absolute slot in which
its last byte crosses. `live` marks a word of a live port during a replay (R480). -/
structure Incoming where
  addr : Nat
  word : WireWord
  at' : Nat
  last : Bool
  live : Bool
  deriving DecidableEq, Repr

/-- A word a port is to read for its burst (R163, R181): its address, its position, and the slot its first byte is
driven in. `cut` says that CS# rises before its second byte has crossed (R164). -/
structure ReadItem where
  addr : Nat
  first : Bool
  driveAt : Nat
  delta : Nat
  last : Bool
  cut : Bool
  deriving DecidableEq, Repr

/-- A word a transaction returns: data, its code, the slot of its bank read, the slot in which its first byte is driven
(R170, R181), what its item of the logbook needs (R469), and whether its first byte has been driven. Slots are absolute. -/
structure Driven where
  addr : Nat
  data : Word
  code : Nat
  slot : Nat
  driveAt : Nat
  delta : Nat
  last : Bool
  cut : Bool
  done : Bool
  deriving DecidableEq, Repr

/-- The two bytes in which a returned word crosses the wire: S1:S0 hold its code (R162, R170). -/
def Driven.bytes (v : Driven) : Byte × Byte := wireBytes v.data (bit v.code 0) (bit v.code 1)

/-- A touch of a hold-area word (R178), kept for the collision window. `real` is false for a read whose word has not been
driven yet; `hit` once it has been counted (R182). -/
structure Touch where
  addr : Nat
  slot : Nat
  write : Bool
  real : Bool
  hit : Bool
  deriving DecidableEq, Repr

/-- A local semaphore (R245, R254). -/
structure SemLocal where
  owner : Option Party := none
  wantA : Bool := false
  wantB : Bool := false
  wantP : Bool := false
  broken : Bool := false
  deriving DecidableEq, Repr

/-- A ring semaphore as the node sees it (R248 ff., R254). -/
structure SemRing where
  node : Nat := 0
  party : Option Party := none
  broken : Bool := false
  deriving DecidableEq, Repr

/-- A ring claim awaiting its answer (R249). -/
structure RingClaim where
  sem : Nat
  party : Party
  tick : Nat
  slot : Nat
  deriving DecidableEq, Repr

/-- A mailbox channel (R255 to R270). `timer` holds the tick of the POST that started the ACK timer; `armed` is the arm
of R268; `reserved` counts reply words the gate reserved on a return channel (R275). -/
structure Chan where
  stage : List Word := List.replicate 16 0#14
  queue : List (List Word) := []
  /-- The slot of each queued message's POST (R261). -/
  posted : List Nat := []
  /-- The slots of the last return code and of the last refusal by the gate (R274, R275). -/
  codeAt : Nat := 0
  refusedAt : Option Nat := none
  /-- Messages at the head that have a return code and stay, the pilot being locked (R269, R291). -/
  answered : Nat := 0
  ack : Word := 0
  notify : Nat := 0
  confirm : Bool := false
  ackto : Nat := 0
  acktoEff : Nat := 0
  timer : Option Nat := none
  stale : Bool := false
  sndrst : Bool := false
  ackValid : Bool := false
  ackStale : Bool := false
  armed : Bool := false
  last : Nat := 0
  refused : Nat := 0
  misuse : Nat := 0
  timeouts : Nat := 0
  reserved : Nat := 0
  /-- Free units of the channel's mailbox book (R100, R462). -/
  free : Nat := 16
  deriving DecidableEq, Repr

/-- How far a command of a channel to the pilot has come (R274 to R276). -/
inductive CmdPhase where
  /-- admitted by the gate, not yet taken -/
  | admitted
  /-- taken by the pilot, its arguments in range -/
  | accepted
  /-- its action has started and waits for an end of its own -/
  | started
  deriving DecidableEq, Repr

/-- A command in progress: its message, the absolute slot it became next or was accepted in, the tick and slot of
acceptance, and the reply words reserved for it. -/
structure Cmd where
  words : List Word
  phase : CmdPhase
  nextAt : Nat
  acceptAt : Nat
  acceptTick : Nat
  reserved : Nat
  /-- The tally's value in effect at acceptance, for TALLY_READ and TALLY_ATTEST (R282, R374). -/
  tallyAt : Nat := 0
  /-- Overruns of the tally update entry since acceptance, each of which lengthens TALLY_INC's window (R280). -/
  grace : Nat := 0
  /-- The copy an accepted LOGBOOK_EXPORT is to write, and the live entries it has not yet copied (R476). -/
  copy : List Word := []
  lock : Nat := 0
  deriving DecidableEq, Repr

/-- A message from a peer node held in the pilot's inbox (R283). -/
structure PeerMsg where
  port : Port
  src : Nat
  words : List Word
  deriving DecidableEq, Repr

/-- The lifeboat frame (R291). -/
structure Lifeboat where
  cause : Nat := 0
  vector : Nat := 0
  pc : Nat := 0
  sp : Nat := 0
  tick : Nat := 0
  deriving DecidableEq, Repr

/-- An event source (R294 to R297): pending, mask shadow and mask in effect, active with its owner, targets (bit 0 port
A, bit 1 port B, bit 2 pilot), lost count. -/
structure Source where
  pend : Bool := false
  maskSh : Bool := true
  mask : Bool := true
  active : Bool := false
  owner : Option Party := none
  targets : Nat := 0
  lost : Nat := 0
  deriving DecidableEq, Repr

/-- A record waiting to be written (R298 to R301): its source, its target, the tick in which the source became postable,
the slot (counted from power-on) of it, and how many of its words stand in the queue. -/
structure EvRecord where
  source : Nat
  target : Party
  tick : Nat
  at' : Nat
  written : Nat
  deriving DecidableEq, Repr

/-- One event queue's indices, sequence count and overflow count (R300 to R305), and the free units of its book. -/
structure EvQueue where
  wr : Nat := 0
  rd : Nat := 0
  cnt : Nat := 0
  seq : Nat := 0
  ovf : Nat := 0
  free : Nat := 1024
  deriving DecidableEq, Repr

/-- Where a block goes: the ring, the freeze area or the post area (R336, R340, R341). -/
inductive BlockPlace where
  | ring | freeze | post
  deriving DecidableEq, Repr

/-- A TRUNC block due (R347): the tick of the stall, the block's samples, how many are kept, the missing positions, the address
of its first stage word, its place, its descriptor, and whether a block of the ring ends with the freeze tick (R340). -/
structure TruncDue where
  tick : Nat
  n : Nat
  kept : Nat
  missing : List Nat
  stage : Nat
  place : BlockPlace
  desc : Nat
  last : Bool
  deriving DecidableEq, Repr

/-- One packer channel (R318 to R347). Staged samples lie in the array; here stand the positions that are missing, the
ring pointers, and what is due. -/
structure PkrChan where
  desc : Nat := 0
  next : Nat := 0
  arm : Bool := false
  fresh : Bool := false
  miss : Nat := 0
  trunc : Nat := 0
  lost : Nat := 0
  ringcut : Nat := 0
  /-- Sample of the last intake, to be staged in the tick after it; `none` inside is a missing sample. -/
  sample : Option (Option Word) := none
  /-- Samples staged in the block in progress (PKR_POS). -/
  staged : Nat := 0
  /-- Missing positions of the block in progress, ascending. -/
  missing : List Nat := []
  /-- Ring's oldest pointer, write pointer, and the lengths of its blocks, oldest first. -/
  o : Nat := 0
  w : Nat := 0
  blocks : List Nat := []
  /-- The block in progress closes under a descriptor that is no longer the channel's, and is not written (R344). -/
  discard : Bool := false
  /-- The descriptor the block in progress is coded under (R321). -/
  blockDesc : Nat := 0
  truncDue : Option TruncDue := none
  /-- The channel stalled in the running coding entry (R346). -/
  stalled : Bool := false
  /-- Read in this tick's intake entry: `sample` is this tick's. -/
  read : Bool := false
  /-- Coded in this tick. -/
  coded : Bool := false
  /-- Words of the post area used so far (R341). -/
  postUsed : Nat := 0
  /-- The pointer word of the freeze area is still to be written (R340). -/
  freezeDue : Bool := false
  deriving DecidableEq, Repr

/-- The states of a record slot (R354). -/
inductive SlotState where
  | free | rolling | capture | closed | sealing | local' | roped | mismatch
  deriving DecidableEq, Repr

/-- The coding of the state word (R354). -/
def SlotState.code : SlotState → Nat
  | .free => 0 | .rolling => 1 | .capture => 2 | .closed => 3 | .sealing => 4 | .local' => 5 | .roped => 6
  | .mismatch => 7

/-- The state a state word's bits [2:0] name. -/
def SlotState.ofCode : Nat → SlotState
  | 1 => .rolling | 2 => .capture | 3 => .closed | 4 => .sealing | 5 => .local' | 6 => .roped | 7 => .mismatch
  | _ => .free

/-- Replication of a record to one member (R414). -/
inductive RepState where
  | wait | send
  /-- frame F − 1 was sent in the tick -/
  | await (since : Nat)
  | belayed
  deriving DecidableEq, Repr

/-- A record slot's working state (R354, R358, R414): its state word's fields, its sequence, and its members. -/
structure RecSlot where
  state : SlotState := .free
  belays : Nat := 0
  ucSeal : Bool := false
  repaired : Bool := false
  seq : Nat := 0
  cutShort : Bool := false
  extra : Nat := 0
  members : List RepState := []
  deriving DecidableEq, Repr

/-- The seal engine's work (R362). -/
inductive SealJob where
  /-- an accepted TALLY_ATTEST of a port: words 0 to 17 as they stand at acceptance, and its destination (R374) -/
  | attest (port : Port) (words : List Word) (dest : Nat)
  /-- a CLOSED record by slot -/
  | record (slot : Nat)
  /-- a replica of a tally: its words 0 to 17 (R375) -/
  | replica (tally : Nat) (words : List Word)
  deriving DecidableEq, Repr

/-- A repair under way (R366, R415): the slot, the member asked and the tick of the request, the words that have come, and
the digest of a first copy that passed. -/
structure Repair where
  slot : Nat
  member : Nat
  tick : Nat
  words : List Word := []
  next : Nat := 0
  digest : Option (List Byte) := none
  deriving DecidableEq, Repr

/-- A replica that a recovery has received, by the member that sent it (R377). -/
structure Replica where
  node : Nat
  words : List Word
  deriving DecidableEq, Repr

/-- A recovery in progress (R377): its port, its tally, its tick of acceptance and the replicas that have arrived. -/
structure Recover where
  port : Port
  tally : Nat
  tick : Nat
  replicas : List Replica := []
  deriving DecidableEq, Repr

/-- A tally (R368 to R375): its declaration, its decoded value (selected copy, version, H, L, n_inc) and increments
accepted and not yet applied, in acceptance order. -/
structure Tally where
  declared : Bool := false
  portA : Bool := false
  portB : Bool := false
  broken : Bool := false
  worn : Bool := false
  copy1 : Bool := false
  ver : Nat := 0
  high : Nat := 0
  low : Nat := 0
  nInc : Nat := 0
  incs : List (Port × Nat) := []
  /-- The value of the last replica made (R375). -/
  lastReplica : Nat := 0
  /-- The slot in which the last replica was made (R375). -/
  lastReplicaAt : Option Nat := none
  deriving DecidableEq, Repr

/-- The value of a tally, 64·H + L (R369). -/
def Tally.value (t : Tally) : Nat := 64 * t.high + t.low

/-- The states of a page of a persistent hold (R224). -/
inductive PageState where
  | clean | dirty | storing | redirty
  deriving DecidableEq, Repr

/-- A page that is not CLEAN, with the slot in which it left CLEAN (R224, R233). -/
structure PageRec where
  page : Nat
  state : PageState
  since : Nat
  deriving DecidableEq, Repr

/-- A logical page of the keel store (R220): the array page bound to it, and its current physical copy. -/
structure Logical where
  page : Option Nat := none
  phys : Option Nat := none
  deriving DecidableEq, Repr

/-- The contents of a physical page (R221), with the CRC-32 stored over the items; `order` ranks copies by the time they were stored
(R223). -/
structure PageCopy where
  data : List (Nat × Word)
  written : List Nat
  uncorr : List Nat
  logical : Nat
  page : Nat
  append : Option Nat
  crc : Nat
  order : Nat
  deriving DecidableEq, Repr

/-- A physical page: store count, bad mark, contents (R221, R222). -/
structure Phys where
  count : Nat := 0
  bad : Bool := false
  copy : Option PageCopy := none
  deriving DecidableEq, Repr

/-- A spare page's entry of the retirement map (R222, R219 ECC_RETMAP). -/
structure Retired where
  page : Nat := 0
  inUse : Bool := false
  deriving DecidableEq, Repr

/-- A committed map copy (R222). The tables are sparse: an unlisted logical page is unbound without copy, an unlisted
physical page has count 0 and is good. -/
structure MapCopy where
  seq : Nat := 0
  logical : List (Nat × Logical) := []
  wear : List (Nat × (Nat × Bool)) := []
  retired : List (Nat × Retired) := []
  bankRet : List Nat := []
  deriving DecidableEq, Repr

/-- A page store's buffer (R227): what has been read of a page so far. `move` marks a wear-levelling move (R235). -/
structure PageBuf where
  page : Nat
  logical : Nat
  data : List (Nat × Word) := []
  uncorr : List Nat := []
  written : List Nat := []
  append : Option Nat := none
  read : Nat := 0
  move : Bool := false
  deriving DecidableEq, Repr

/-- A committed page store not yet covered by a map commit (R229). -/
structure StoreRec where
  logical : Nat
  phys : Nat
  page : Nat
  deriving DecidableEq, Repr

/-- A page being programmed (R227, R233): its buffer, its physical page, the slots that have counted before `since`, and the absolute
slot from which counting goes on. -/
structure Program where
  buf : PageBuf
  phys : Nat
  done : Nat := 0
  since : Nat
  deriving DecidableEq, Repr

/-- A map commit running (R229): the stores it covers, the first of its 128,000 slots, what it writes. -/
structure MapCommit where
  covers : List StoreRec
  startAt : Nat
  startTick : Nat
  copy : MapCopy
  final : Bool
  deriving DecidableEq, Repr

/-- The phases of a stripe test (R208). -/
inductive StripePhase where
  | copy | write5 | read5 | writeA | readA | back
  deriving DecidableEq, Repr

/-- A word of the stripe buffer (R208, R209): its code word, and, of a word that was copied corrected, the outcome it was read
with. -/
structure Buffered where
  code : Code
  was : Option Decoded := none
  deriving DecidableEq, Repr

/-- A stripe under test or being copied by a retirement (R208, R214), with the indices of its failing words (R210). -/
structure StripeJob where
  bank : Nat
  base : Nat
  phase : StripePhase := .copy
  idx : Nat := 0
  buf : List Buffered := []
  failed : List Nat := []
  retire : Bool := false
  deriving DecidableEq, Repr

/-- A software range pass (R205 to R207), running or waiting, with its summary so far. -/
structure RangePass where
  port : Port
  first : Nat
  last : Nat
  pos : Nat
  words : Nat := 0
  corr : Nat := 0
  uncorr : Nat := 0
  firstFail : Option Nat := none
  lastFail : Option Nat := none
  deriving DecidableEq, Repr

/-- A retirement in progress (R214): page, spare, the stripe reached, and whether its copy is complete. -/
structure RetireJob where
  port : Port
  page : Nat
  spare : Nat
  stripe : Nat := 0
  copied : Bool := false
  bankJob : Bool := false
  deriving DecidableEq, Repr

/-- A raw operation waiting or running (R217). -/
inductive RawOp where
  | read | write | check
  deriving DecidableEq, Repr

/-- A write-back the scrubber owes a bank (R203): address, corrected data, and whether a write reached the word since. -/
structure WriteBack where
  addr : Nat
  data : Word
  touched : Bool
  deriving DecidableEq, Repr

/-- One bank's scrubber state (R191, R201 to R204): `rwb` is the write-back that a served repair address needs, `wb` the one that a
sweep read or a range read needs. -/
structure ScrubBank where
  bptr : Nat := 0
  repair : List Nat := []
  readsThisTick : Nat := 0
  rwb : Option WriteBack := none
  wb : Option WriteBack := none
  stripePtr : Nat := 0
  deriving DecidableEq, Repr

/-- The states of a link, as RNG_LUP and RNG_LDN show them (R422, R430). -/
inductive LinkState where
  | off | listen | pass | active | training | reversed | los
  deriving DecidableEq, Repr

/-- The coding of RNG_LUP and RNG_LDN. -/
def LinkState.code : LinkState → Nat
  | .off => 0 | .listen => 1 | .pass => 2 | .active => 3 | .training => 4 | .reversed => 5 | .los => 6

/-- A guest slot being filled (R413): its address, the source and the sequence, and the next index expected. -/
structure Filling where
  slot : Nat
  src : Nat
  seq : Nat
  next : Nat
  deriving DecidableEq, Repr

/-- A frame (R386). -/
structure Frame where
  typ : FrameType
  src : Nat
  dst : Nat
  hops : Nat
  bcast : Bool
  reply : Bool
  payload : List Word
  deriving DecidableEq, Repr

/-- A frame in a sender's retry store (R394), with its link sequence. -/
structure SentFrame where
  seq : Nat
  frame : Frame
  /-- The slot in which it was last sent (R394). -/
  sentAt : Nat := 0
  deriving DecidableEq, Repr

/-- What a link transmitter sent last (R385, R392): the output of LINK_TRANSMIT and of the ordered-set commands. -/
inductive TxItem where
  | idle
  | ack (seq : Nat)
  | nak (seq : Nat)
  | crd (cls : Nat) (count : Nat)
  | mark (tick : Nat) (acc : Nat) (hops : Nat)
  | pong (token : Nat) (turn : Nat)
  | sleep | passon | passoff
  | frame (seq : Nat) (f : Frame)
  | abort
  deriving DecidableEq, Repr

/-- One physical link (R380 to R395, R430 to R440). -/
structure LinkSt where
  state : LinkState := .off
  /-- Training step 1 to 5; 0 when no training runs. -/
  step : Nat := 0
  /-- The training in progress is a retrain (R395). -/
  retrain : Bool := false
  polInv : Bool := false
  dly : Nat := 0
  /-- Delay measurements taken in step 4, in 1/16 cycle and doubled to stay exact (R383). -/
  pongs : List Int := []
  /-- The PING tokens to be answered. -/
  pingOwed : List Nat := []
  everActive : Bool := false
  /-- The next ACTIVE begins both directions anew (R433). -/
  restart : Bool := false
  /-- Credits the sender holds per class (R391). -/
  credits : List Nat := [0, 0, 0, 0]
  /-- Frames sent per class whose credit has not returned: the held units of books 0 to 7 (R462). -/
  held : List Nat := [0, 0, 0, 0]
  txSeq : Nat := 0
  rxSeq : Nat := 0
  nakSent : Bool := false
  ackOwed : Option Nat := none
  nakOwed : Option Nat := none
  crdOwed : List Nat := []
  markOwed : Option (Nat × Nat × Nat) := none
  unacked : List SentFrame := []
  /-- Link sequences of the unacknowledged frames that are to be resent, in original order (R394, R395). -/
  resend : List Nat := []
  /-- The resends go before every other frame: those of a retrain or a restart (R395, R433). -/
  resendFirst : Bool := false
  /-- Frames waiting to be sent: through frames with the link whose credit their departure returns, then local frames
  (R391, R392). -/
  through : List (Frame × Option Link) := []
  locals : List Frame := []
  /-- Consecutive resends of the oldest frame without progress (R395). -/
  tries : Nat := 0
  /-- Classes whose next frame has been counted as waiting for a credit (R392). -/
  waiting : List Nat := []
  /-- This hop is broken (R405). -/
  broken : Bool := false
  asleep : Bool := false
  /-- Slot until which the link drives a beacon, if it does (R438, R440). -/
  beacon : Option Nat := none
  /-- Slot of the last relayed beacon and of the last started one. -/
  lastRelay : Option Nat := none
  lastBeacon : Option Nat := none
  /-- Slot at which the training step began, or the retrain; at LOS or REVERSED the slot of the last probe (R380, R395). -/
  stepAt : Nat := 0
  sent : TxItem := .idle
  deriving DecidableEq, Repr

/-- Enumeration at the anchor (R396 to R399). -/
inductive EnumPhase where
  | idle | wanted | down | up
  deriving DecidableEq, Repr

/-- The class of the harness inputs, by their codes (R448, R450, R454). -/
structure PinClass where
  cls : Nat := 0
  cand : Nat := 0
  fault : Bool := false
  deriving DecidableEq, Repr

/-- The harness inputs as the always-on monitor shows them (R447 to R455). -/
structure Pins where
  wake : PinClass := {}
  wakeRatio : Nat := 0
  vbats : PinClass := {}
  volts : Int := 0
  frzP : PinClass := {}
  frzN : PinClass := {}
  /-- Consecutive tests in which a wire crossed, up to two (R453). -/
  crossP : Nat := 0
  crossN : Nat := 0
  pair : PairState := .bad
  frzFault : Bool := true
  /-- Consecutive measurements that show no cause for the fault bit (R455). -/
  frzOk : Nat := 0
  deriving DecidableEq, Repr

/-- A logbook record (R468): its kind, its slot and its words. -/
structure LogRec where
  kind : Nat
  slot : Nat
  words : List Word
  deriving DecidableEq, Repr

/-- One item of a transaction's record (R469): its port, its word address, and its words. -/
structure WireItem where
  port : Port
  addr : Nat
  words : List Word
  deriving DecidableEq, Repr

/-- A whole tick entry of the logbook (R468). -/
structure LogEntry where
  tick : Nat
  words : List Word
  deriving DecidableEq, Repr

/-- An output unit of the tick (R473): its kind, its slot and its five words. -/
structure OutUnit where
  kind : Nat
  slot : Nat
  words : List Word
  deriving DecidableEq, Repr

/-- The frozen logbook (R475). -/
structure Frozen where
  entries : List LogEntry
  command : Bool
  seq : Nat
  deriving DecidableEq, Repr

/-- A read item of the entry being played (R481): its port, the absolute slot of its first byte, and what the field
device drove. -/
structure Expect where
  port : Port
  at' : Nat
  data : Word
  code : Nat
  deriving DecidableEq, Repr

/-- A replay in progress (R477 to R482): the words of the source that remain, the records of the tick being played that
remain, the digests its END record gave, and where it stands. -/
structure Replay where
  /-- Where the next entry begins, and the words of the run from there (R477). -/
  addr : Nat := 0
  left : Nat := 0
  /-- The records of the tick being played that have yet to act, and its END record. -/
  entry : List LogRec := []
  endRec : List Word := []
  rand : List Nat := []
  checks : List LogRec := []
  keels : List Nat := []
  stopReason : Option Nat := none
  /-- The tick being played has a divergence (R481). -/
  divTick : Bool := false
  expect : List Expect := []
  /-- The command of each port's last played record, and the absolute slot of its last item, for a continuation (R469). -/
  lastA : Nat × Nat := (0, 0)
  lastB : Nat × Nat := (0, 0)
  /-- The field's ON, as played, and the live harness inputs, which the monitor goes on measuring (R479). -/
  on : Bool := false
  pins : Pins := {}
  /-- The live links' protocol, kept while the played one runs (R480). -/
  liveUp : LinkSt := {}
  liveDn : LinkSt := {}
  deriving DecidableEq, Repr

/-- How the device reads the flash after discovery (R104): the protocol as DEV_CFG_SEL.cf_proto codes it, the instruction, the mode
and dummy clocks between address and data, and the status read that finds the quad enable bit. -/
structure FlashRead where
  proto : Nat := 0
  instr : Byte := 0x03#8
  modeClocks : Nat := 0
  dummyClocks : Nat := 0
  statusRead : Option Byte := none
  deriving DecidableEq, Repr

/-- The last flash command the device issued (R119): the output of the update commands. A program names its bytes by their
offsets. -/
inductive FlashCmd where
  | none
  | erase (target : CopyId)
  | program (target : CopyId) (bytes : List (Nat × Byte))
  | magic (target : CopyId)
  deriving DecidableEq, Repr

/-- A candidate copy waiting for its check (R114): which copy, and its header's 128 bytes. -/
structure Candidate where
  copy : CopyId
  seq : Nat
  header : List Byte
  deriving DecidableEq, Repr

end Sys2Proof.Machine
end

