-- ==== Sys2Proof/Machine/Blocks.lean ====
section
/-!
DEFINITION. How the packer codes a block, bit by bit (R324 to R331). A sample is `none` where it is missing or lost.
-/
namespace Sys2Proof.Machine
open Sys2Proof

/-- `n` bits of a value, least significant first (13_packer, Block layout). -/
def bitsOf (v : Nat) : Nat → List Bool
  | 0 => []
  | n + 1 => (v % 2 == 1) :: bitsOf (v / 2) n

/-- A unary count: `q` one-bits and one zero-bit. -/
def unary (q : Nat) : List Bool := List.replicate q true ++ [false]

/-- The value of bits, least significant first. -/
def ofBits : List Bool → Nat
  | [] => 0
  | b :: bs => b2n b + 2 * ofBits bs

/-- A stream as words from its first word, the last word filled with zeros (R324). -/
def streamWords : Nat → List Bool → List Word
  | 0, _ => []
  | n + 1, bs => wd (ofBits (bs.take 14)) :: streamWords n (bs.drop 14)

/-- The words of a stream. -/
def blockWords (bs : List Bool) : List Word := streamWords (ceilDiv bs.length 14) bs

/-- The zigzag of an integer (R329). -/
def zigzag (x : Int) : Nat := if 0 ≤ x then (2 * x).toNat else (-2 * x - 1).toNat

/-- The differences of LOSSLESS (R329). -/
def diffs : List Nat → List Int
  | x :: y :: r => ((y : Int) - (x : Int)) :: diffs (y :: r)
  | _ => []

/-- The quantised differences of BOUNDED (R330): `p` is the last reconstructed sample. -/
def boundedGo (e : Int) (p : Int) : List Nat → List Int
  | [] => []
  | x :: r =>
    let d := (x : Int) - p
    let m := (((d.natAbs : Int) + e) / (2 * e + 1))
    let q := if d < 0 then -m else m
    q :: boundedGo e (min (max (p + q * (2 * e + 1)) 0) 16383) r

/-- The quantised differences of a block (R330). -/
def bounded (e : Nat) : List Nat → List Int
  | [] => []
  | x :: r => boundedGo e x r

/-- The size of a RICE block in bits (R325). -/
def riceSize (us : List Nat) (k : Nat) : Nat := 20 + (us.map fun u => u >>> k).sum + us.length * (1 + k)

/-- The k with the smallest size, ties to the lowest (R329), among 0 to `n`. -/
def riceK (us : List Nat) : Nat → Nat
  | 0 => 0
  | n + 1 => let k := riceK us n
             if riceSize us (n + 1) < riceSize us k then n + 1 else k

/-- The RICE form (R325). -/
def riceBits (x0 : Nat) (us : List Nat) (k : Nat) : List Bool :=
  bitsOf (1 + 4 * k) 6 ++ bitsOf x0 14 ++ us.flatMap fun u => unary (u >>> k) ++ bitsOf u k

/-- The RAW form (R325). -/
def rawBits (xs : List Nat) : List Bool := bitsOf 0 6 ++ xs.flatMap fun x => bitsOf x 14

/-- The positions of the missing samples, ascending. -/
def missingAt : Nat → List (Option Word) → List Nat
  | _, [] => []
  | i, none :: r => i :: missingAt (i + 1) r
  | i, some _ :: r => missingAt (i + 1) r

/-- The present samples in order. -/
def presentOf (xs : List (Option Word)) : List Nat := xs.filterMap fun x => x.map BitVec.toNat

/-- The positions, where some sample is present, and the present samples. -/
def gapBody (xs : List (Option Word)) : List Bool :=
  let ms := missingAt 0 xs
  (if ms.length = xs.length then [] else ms.flatMap fun p => bitsOf p 5)
    ++ (presentOf xs).flatMap fun x => bitsOf x 14

/-- The ESC form (R325): the count 32 is coded 0. -/
def escBits (xs : List (Option Word)) : List Bool :=
  bitsOf 2 6 ++ bitsOf ((missingAt 0 xs).length % 32) 5 ++ gapBody xs

/-- One ENVELOPE group (R331). -/
def envGroup (g : List (Option Word)) : List Bool :=
  let xs := presentOf g
  match xs with
  | [] => bitsOf 2 2
  | x :: r =>
    let p := xs.length
    let tag := if p = g.length then 0 else 1
    bitsOf tag 2 ++ bitsOf (r.foldl min x) 14 ++ bitsOf (r.foldl max x) 14 ++ bitsOf ((2 * xs.sum + p) / (2 * p)) 14

/-- The ENVELOPE groups of `m` samples (R325, R331). -/
def envGroups (m : Nat) : Nat → List (Option Word) → List Bool
  | 0, _ => []
  | n + 1, xs => if xs.isEmpty then [] else envGroup (xs.take m) ++ envGroups m n (xs.drop m)

/-- The group size of a descriptor's param (R320). -/
def groupSize (desc : Nat) : Nat := 4 * 2 ^ field desc 2 3

/-- The ENV body over a block's samples. -/
def envBody (desc : Nat) (xs : List (Option Word)) : List Bool := envGroups (groupSize desc) xs.length xs

/-- The mode of a descriptor (R320). -/
def descMode (desc : Nat) : Nat := desc % 4

/-- A descriptor's enable bit (R320). -/
def descOn (desc : Nat) : Bool := bit desc 5

/-- The first form that applies to a block that closes normally (R328, steps 2 to 5). -/
def codeBlock (desc : Nat) (xs : List (Option Word)) : List Bool :=
  if descMode desc = 3 then bitsOf 1 6 ++ envBody desc xs
  else if xs.any Option.isNone then escBits xs
  else
    let vs := presentOf xs
    if descMode desc = 0 then rawBits vs
    else
      let us := (if descMode desc = 1 then diffs vs else bounded (2 ^ field desc 2 3) vs).map zigzag
      let k := riceK us 13
      if riceSize us k < 6 + 14 * vs.length then riceBits (vs.headD 0) us k else rawBits vs

/-- The TRUNC form (R325, R326): `kept` samples are kept and the rest of the `n` are lost; in ENVELOPE the lost samples
are not present in the groups of R331. -/
def truncBits (desc n : Nat) (kept : List (Option Word)) : List Bool :=
  let lost := n - kept.length
  bitsOf 3 6 ++ bitsOf (lost % 32) 5 ++
    (if descMode desc = 3 then envBody desc (kept ++ List.replicate lost none)
     else bitsOf (missingAt 0 kept).length 5 ++ gapBody kept)

end Sys2Proof.Machine
end

