-- ==== Sys2Proof/Machine/Flags.lean ====
section
/-!
DEFINITION. The code of the array (chapter 08): the check bits, the syndrome and the outcome of a read; and the CRC-32 of
R110, which the image, the keel store, the links and the logbook share.
-/
namespace Sys2Proof.Machine
open Sys2Proof

/-- The column of each data bit in the parity-check matrix (R187). -/
def dataColumns : List Nat := [0x03, 0x05, 0x06, 0x09, 0x0A, 0x0C, 0x11, 0x12, 0x14, 0x18, 0x07, 0x0B, 0x0D, 0x0E]

/-- The exclusive OR of the bits of a number below 2^n. -/
def parityOf : Nat → Nat → Bool
  | 0, _ => false
  | n + 1, v => (v % 2 == 1) ^^ parityOf n (v / 2)

/-- The exclusive OR of the columns of the set data bits: the five check bits (R187). -/
def checkBitsGo : List Nat → Nat → Nat
  | [], _ => 0
  | c :: cs, v => Nat.xor (if v % 2 == 1 then c else 0) (checkBitsGo cs (v / 2))

/-- The five check bits c0 to c4 of a data word (R187). -/
def checkBits (w : Word) : Nat := checkBitsGo dataColumns w.toNat

/-- The code word of a data word (R32, R187): data in [13:0], checks in [18:14], the overall parity in [19]. -/
def encodeWord (w : Word) : Code :=
  let c := checkBits w
  let v := w.toNat + 16384 * c
  BitVec.ofNat 20 (v + 524288 * b2n (parityOf 19 v))

/-- A code word from data and the six bits [19:14] (R217). -/
def rawCode (data : Word) (chk : Nat) : Code := BitVec.ofNat 20 (data.toNat + 16384 * (chk % 64))

/-- The data bits of a stored code word (R32). -/
def codeData (c : Code) : Word := c.extractLsb' 0 14

/-- The bits [19:14] of a stored code word: five check bits and the parity bit (R32). -/
def codeCheck (c : Code) : Nat := field c.toNat 14 6

/-- The data bit whose column is `s`, if `s` is a column (R188). -/
def columnBit (s : Nat) : Option Nat := dataColumns.idxOf? s

/-- The read of a code word (R188, the syndrome table). -/
def decodeCode (c : Code) : Decoded :=
  let data := codeData c
  let s := Nat.xor (field c.toNat 14 5) (checkBits data)
  let p := parityOf 20 c.toNat
  if p then
    if s = 0 then { data, out := .corrected, syndrome := s, parity := p, locus := .parity }
    else if s = 1 ∨ s = 2 ∨ s = 4 ∨ s = 8 ∨ s = 16 then
      { data, out := .corrected, syndrome := s, parity := p, locus := .check }
    else match columnBit s with
      | some i => { data := data ^^^ (1#14 <<< i), out := .corrected, syndrome := s, parity := p, locus := .data }
      | none => { data, out := .uncorrectable, syndrome := s, parity := p, locus := .multiple }
  else if s = 0 then { data, out := .clean, syndrome := s, parity := p, locus := .none }
  else { data, out := .uncorrectable, syndrome := s, parity := p, locus := .multiple }

/-- The status a port read carries for an outcome (R189): 00, 01 or 11. -/
def Check.status : Check → Nat
  | .clean => 0
  | .corrected => 1
  | .uncorrectable => 3

/-- Recall's flagged word: the data bits with c0 and c1 inverted, which reads as uncorrectable (R240). -/
def flaggedCode (w : Word) : Code := encodeWord w ^^^ 0x0C000#20

/-- Eight steps of the reflected CRC-32 (R110). -/
def crcByte : Nat → Nat → Nat
  | 0, c => c
  | n + 1, c => crcByte n (if c % 2 == 1 then Nat.xor (c / 2) 0xEDB88320 else c / 2)

/-- The running CRC over a list of bytes (R110). -/
def crcGo : List Byte → Nat → Nat
  | [], c => c
  | b :: bs, c => crcGo bs (crcByte 8 (Nat.xor c b.toNat))

/-- CRC-32: IEEE 802.3 polynomial, reflected, initial value and final complement of all ones (R110). -/
def crc32 (bs : List Byte) : Nat := Nat.xor (crcGo bs 0xFFFFFFFF) 0xFFFFFFFF

/-- A word as a 16-bit little-endian unit, zero-extended (R286, R360, R473). -/
def wordBytes (w : Word) : List Byte := [BitVec.ofNat 8 w.toNat, BitVec.ofNat 8 (w.toNat / 256)]

/-- Words serialised as 16-bit little-endian units. -/
def wordsBytes : List Word → List Byte
  | [] => []
  | w :: ws => wordBytes w ++ wordsBytes ws

/-- The value of bytes, least significant first. -/
def leBytes : List Byte → Nat
  | [] => 0
  | b :: bs => b.toNat + 256 * leBytes bs

/-- `n` bytes of a value, least significant first. -/
def toBytes (v : Nat) : Nat → List Byte
  | 0 => []
  | n + 1 => BitVec.ofNat 8 v :: toBytes (v / 256) n

/-- Bytes of a word-packed field: byte i occupies bits [8i+7:8i] of the value of the words (R285, R359). -/
def unpackBytes (ws : List Word) (n : Nat) : List Byte := toBytes (ofWords ws) n

/-- Words of a byte field packed as R285 packs it, `n` words. -/
def packBytes (bs : List Byte) (n : Nat) : List Word := toWords (leBytes bs) n

/-- Groups of seven bytes in four words (R120, R387). -/
def packGroups : Nat → List Byte → List Word
  | 0, _ => []
  | n + 1, bs => toWords (leBytes (bs.take 7)) 4 ++ packGroups n (bs.drop 7)

/-- The bytes of groups of four words (R120). -/
def unpackGroups : Nat → List Word → List Byte
  | 0, _ => []
  | n + 1, ws => toBytes (ofWords (ws.take 4)) 7 ++ unpackGroups n (ws.drop 4)

end Sys2Proof.Machine
end

