-- ==== Sys2Proof/Machine/Crypto.lean ====
section
/-!
DEFINITION. SHA-256 and ECDSA on P-256 with the deterministic nonce, which the spec names by their standards and does
not define (R111, R288, R360; PRESUMED, log entry 30).
-/
namespace Sys2Proof.Machine
open Sys2Proof

/-! ### SHA-256 (PRESUMED: FIPS 180-4) -/

/-- A word of the hash. -/
abbrev HashWord := BitVec 32

/-- The greatest number `r + x`, `x` of `n` bits, whose `k`-th power does not exceed `v`: the root of `v`, from its highest bit
down. -/
def rootFrom (k v : Nat) : Nat → Nat → Nat
  | 0, r => r
  | n + 1, r => rootFrom k v n (if (r + 2 ^ n) ^ k ≤ v then r + 2 ^ n else r)

/-- The first 32 bits of the fractional part of the `k`-th root of a number below 2^12. -/
def rootFraction (k p : Nat) : HashWord := BitVec.ofNat 32 (rootFrom k (p * 2 ^ (32 * k)) 38 0)

/-- The primes below a bound. -/
def primesBelow (n : Nat) : List Nat :=
  (List.range n).filter fun p => decide (2 ≤ p) && (List.range p).all fun q => decide (q < 2) || decide (p % q ≠ 0)

/-- The 64 round constants: the fractions of the cube roots of the first 64 primes. -/
def roundConstants : List HashWord := (primesBelow 312).map (rootFraction 3)

/-- The eight working variables. -/
structure HashVars where
  a : HashWord
  b : HashWord
  c : HashWord
  d : HashWord
  e : HashWord
  f : HashWord
  g : HashWord
  h : HashWord
  deriving DecidableEq, Repr

/-- Eight words as working variables. -/
def HashVars.of (w : Nat → HashWord) : HashVars :=
  { a := w 0, b := w 1, c := w 2, d := w 3, e := w 4, f := w 5, g := w 6, h := w 7 }

/-- The working variables as words. -/
def HashVars.words (v : HashVars) : List HashWord := [v.a, v.b, v.c, v.d, v.e, v.f, v.g, v.h]

/-- The initial hash value: the fractions of the square roots of the first 8 primes. -/
def firstHash : HashVars := .of fun i => rootFraction 2 ((primesBelow 20).getD i 0)

/-- A big-endian value of bytes. -/
def beBytes (bs : List Byte) : Nat := bs.foldl (fun v b => 256 * v + b.toNat) 0

/-- `n` bytes of a value, most significant first. -/
def toBe (v n : Nat) : List Byte := (toBytes v n).reverse

/-- A word rotated right by two amounts, and a third image of it, added without carry: the shape of the four sigma functions. -/
def sigma (m n : Nat) (third x : HashWord) : HashWord := x.rotateRight m ^^^ x.rotateRight n ^^^ third

/-- The word that follows a window of 16 message words. -/
def nextMessageWord (win : List HashWord) : HashWord :=
  let w := fun i => win.getD i 0#32
  w 0 + sigma 7 18 (w 1 >>> 3) (w 1) + w 9 + sigma 17 19 (w 14 >>> 10) (w 14)

/-- One round with its constant and its message word. -/
def HashVars.round (v : HashVars) (k w : HashWord) : HashVars :=
  let choice := (v.e &&& v.f) ^^^ (~~~v.e &&& v.g)
  let majority := (v.a &&& v.b) ^^^ (v.a &&& v.c) ^^^ (v.b &&& v.c)
  let mixed := v.h + sigma 6 11 (v.e.rotateRight 25) v.e + choice + k + w
  { v with a := mixed + sigma 2 13 (v.a.rotateRight 22) v.a + majority, b := v.a, c := v.b, d := v.c,
           e := v.d + mixed, f := v.e, g := v.f, h := v.g }

/-- A round for each constant, over a window of the 16 message words that come next. -/
def HashVars.rounds (v : HashVars) : List HashWord → List HashWord → HashVars
  | [], _ => v
  | k :: ks, win => (v.round k (win.headD 0#32)).rounds ks (win.tail ++ [nextMessageWord win])

/-- The first `n` words of some bytes, each most significant byte first. -/
def messageWords (bs : List Byte) (n : Nat) : List HashWord :=
  (List.range n).map fun i => BitVec.ofNat 32 (beBytes ((bs.drop (4 * i)).take 4))

/-- A block of 64 bytes joins the hash value. -/
def HashVars.absorb (v : HashVars) (blk : List Byte) : HashVars :=
  let r := v.rounds roundConstants (messageWords blk 16)
  .of fun i => v.words.getD i 0#32 + r.words.getD i 0#32

/-- A number of blocks join the hash value. -/
def HashVars.absorbAll (v : HashVars) : Nat → List Byte → HashVars
  | 0, _ => v
  | n + 1, bs => (v.absorb (bs.take 64)).absorbAll n (bs.drop 64)

/-- A message closed by a 1 bit, zeros, and its length in bits, in whole blocks. -/
def closedMessage (bs : List Byte) : List Byte :=
  bs ++ 0x80#8 :: List.replicate ((119 - bs.length % 64) % 64) 0#8 ++ toBe (8 * bs.length) 8

/-- SHA-256 of a list of bytes, 32 bytes. -/
def sha256 (bs : List Byte) : List Byte :=
  let m := closedMessage bs
  (firstHash.absorbAll (m.length / 64) m).words.flatMap fun w => toBe w.toNat 4

/-- HMAC with SHA-256 (PRESUMED: RFC 2104), for keys of at most 64 bytes. -/
def hmac (key msg : List Byte) : List Byte :=
  let k := key ++ List.replicate (64 - key.length) 0#8
  sha256 ((k.map fun b => b ^^^ 0x5c#8) ++ sha256 ((k.map fun b => b ^^^ 0x36#8) ++ msg))

/-! ### P-256 (PRESUMED: FIPS 186, SEC 2) -/

/-- The field prime. -/
def pP : Nat := 0xffffffff00000001000000000000000000000000ffffffffffffffffffffffff

/-- The group order. -/
def pN : Nat := 0xffffffff00000000ffffffffffffffffbce6faada7179e84f3b9cac2fc632551

/-- The coefficient b. -/
def pB : Nat := 0x5ac635d8aa3a93e7b3ebbd55769886bc651d06b0cc53b0f63bce3c3e27d2604b

/-- The base point. -/
def pG : Nat × Nat :=
  (0x6b17d1f2e12c4247f8bce6e563a440f277037d812deb33a0f4a13945d898c296,
   0x4fe342e2fe1a7f9b8ee7eb4a7c0f9e162bce33576b315ececbb6406837bf51f5)

/-- `b ^ e` modulo `m` over the low `n` bits of `e`. -/
def powMod : Nat → Nat → Nat → Nat → Nat
  | 0, _, _, _ => 1
  | n + 1, b, e, m =>
    let r := powMod n (b * b % m) (e / 2) m
    if e % 2 = 1 then r * b % m else r

/-- The inverse modulo a prime. -/
def invMod (a m : Nat) : Nat := powMod 256 (a % m) (m - 2) m

/-- Addition on the curve; `none` is the point at infinity. -/
def ptAdd : Option (Nat × Nat) → Option (Nat × Nat) → Option (Nat × Nat)
  | none, q => q
  | p, none => p
  | some (x1, y1), some (x2, y2) =>
    if x1 = x2 ∧ (y1 + y2) % pP = 0 then none
    else
      let l := if x1 = x2 then (3 * x1 * x1 + (pP - 3)) % pP * invMod (2 * y1) pP % pP
        else (y2 + pP - y1) % pP * invMod (x2 + pP - x1) pP % pP
      let x3 := (l * l + 2 * pP - x1 - x2) % pP
      some (x3, (l * (x1 + pP - x3) + pP - y1) % pP)

/-- A multiple of a point over the low `n` bits of the factor. -/
def ptMul : Nat → Nat → Option (Nat × Nat) → Option (Nat × Nat)
  | 0, _, _ => none
  | n + 1, k, p =>
    let r := ptMul n (k / 2) (ptAdd p p)
    if k % 2 = 1 then ptAdd r p else r

/-- The point lies on the curve. -/
def onCurve (x y : Nat) : Bool :=
  decide (x < pP) && decide (y < pP) && decide (y * y % pP = (x * x * x + (pP - 3) * x + pB) % pP)

/-- The public key of a private scalar. -/
def publicKey (d : Nat) : Nat × Nat := (ptMul 256 d (some pG)).getD (0, 0)

/-- Verify a signature over a hash with a public key. -/
def ecdsaVerify (x y : Nat) (hash : List Byte) (r s : Nat) : Bool :=
  if onCurve x y ∧ 0 < r ∧ r < pN ∧ 0 < s ∧ s < pN then
    let w := invMod s pN
    let e := beBytes hash
    match ptAdd (ptMul 256 (e * w % pN) (some pG)) (ptMul 256 (r * w % pN) (some (x, y))) with
    | some (px, _) => decide (px % pN = r)
    | none => false
  else false

/-- The candidates of the nonce generator (PRESUMED: RFC 6979), the first that serves. -/
def nonceGo (d e : Nat) : Nat → List Byte → List Byte → Nat × Nat
  | 0, _, _ => (0, 0)
  | n + 1, k, v =>
    let v := hmac k v
    let c := beBytes v
    let r := ((ptMul 256 c (some pG)).getD (0, 0)).1 % pN
    let s := invMod c pN * ((e + r * d) % pN) % pN
    if 0 < c ∧ c < pN ∧ r ≠ 0 ∧ s ≠ 0 then (r, s)
    else
      let k := hmac k (v ++ [0#8])
      nonceGo d e n k (hmac k v)

/-- Sign a hash with a private scalar: the pair (r, s). -/
def ecdsaSign (d : Nat) (hash : List Byte) : Nat × Nat :=
  let seed := toBe d 32 ++ toBe (beBytes hash % pN) 32
  let v := List.replicate 32 0x01#8
  let k := hmac (List.replicate 32 0#8) (v ++ [0#8] ++ seed)
  let v := hmac k v
  let k := hmac k (v ++ [1#8] ++ seed)
  let v := hmac k v
  nonceGo d (beBytes hash) 8 k v

end Sys2Proof.Machine
end

