-- ==== Sys2Proof/Config.lean ====
section
/-!
DEFINITION. What each device has of its own (R3, R292, R364, R112, R113) and the free values: constants without a body,
so that nothing can be proved of their values (DESIGN CHOICE, log entry 4; PRESUMED, log entry 8).
-/
namespace Sys2Proof

/-- The 56-bit unique device identifier of DEV_UID (R292). -/
opaque Config.uid : BitVec 56

/-- The device's P-256 private scalar, below the group order (R288, R364). -/
opaque Config.deviceKey : Nat

/-- The DER bytes of the device's certificate (R364). -/
opaque Config.certificate : List Byte

/-- The mask-ROM hash of the vendor's public key (R112). -/
opaque Config.vendorHash : List Byte

/-- The fused hash of the owner's public key; none while unfused (R113). -/
opaque Config.ownerHash : Option (List Byte)

/-- The random source (R284): one free value per draw. -/
opaque Config.random : Nat → BitVec 56

/-- The value of a word that the spec leaves open: one free value per draw. -/
opaque Config.freeWord : Nat → Word

/-- Whether the pilot, once woken and with no command in progress, still runs at a slot (DEV_PSTAT.state, R292): the
firmware's affair, a free value. -/
opaque Config.pilotStill : Nat → Bool

/-- The two revision bytes of the SFDP vendor header, which R169 leaves open: free values, for a port in 1S-1S-1S or not. -/
opaque Config.sfdpFill : Bool → Nat → Byte

/-- The levels the boundary register captures, in the cell order that the spec does not give (R508): free values. -/
opaque Config.boundary : Nat → List Bool

/-- The check bits a raw read finds in a retired bank, which R216 leaves open (it gives the data, 0x0000, and that the
word is uncorrectable): free values. -/
opaque Config.rawRetired : Nat → BitVec 6

/-- A word of a section of the harbour image, by the section's type and the word's index, beyond what R117 states: a free value,
used only for the configuration CRC of R124. -/
opaque Config.harbourWord : Nat → Nat → Word

/-- The pilot firmware of the harbour image in mask ROM: a free value, used only for the configuration CRC of R124. -/
opaque Config.harbourFirmware : List Byte

end Sys2Proof
end

