-- ==== Sys2Proof/Machine/State.lean ====
section
/-!
DEFINITION. The state of the K14: the queue of waiting commands, and the device. The device is split by the chapters of
the spec. Every field's default is its value right after VDD power-on (R134), which is `State.reset`; NOTES.md and the
log entries 2 to 7 (DESIGN CHOICE) and 8 (PRESUMED) name the values the spec does not give.
-/
namespace Sys2Proof.Machine
open Sys2Proof

/-- Modes, power and wake (chapter 06), with the always-on pins of chapter 20. -/
structure Power where
  powered : Bool := true
  mode : Mode := .off
  prevMode : Mode := .off
  limpCause : Nat := 0
  wakeFail : Nat := 0
  /-- Filtered level of the ON pin (R127). -/
  onPin : Bool := false
  /-- Filtered PFAIL# pin: asserted (R127). -/
  pfailPin : Bool := true
  /-- The crystal or the PLL was lost; counts as PFAIL# asserted until OFF (R499). -/
  clockLost : Bool := false
  /-- The TEST ball reads high (R500). -/
  testHigh : Bool := false
  offLatched : Bool := false
  onLatched : Bool := false
  /-- TEST has ended; RUN or LIMP begins at the next tick boundary (R72, R136). -/
  testDone : Bool := false
  inh : Bool := false
  limpPin : Bool := false
  /-- A SLEEP_REQUEST or ON low deferred in HOLD (R133). -/
  sleepPending : Bool := false
  wakeSrc : WakeSrc := .none
  wakePort : Port := .a
  shortPath : Bool := false
  wakeEnSh : Nat := 0x07
  wakeEn : Nat := 0x07
  wakeTmrSh : Nat := 0
  wakeTmr : Nat := 0
  wakeFails : Nat := 0
  bootT : Nat := 0
  /-- Slot of the entry to WAKE (R155). -/
  wakeAt : Nat := 0
  /-- Failed attempts of the running start, and whether an attempt runs (R142). -/
  attempts : Nat := 0
  attempting : Bool := false
  /-- WAKE was entered from RETAIN (R150). -/
  shortWake : Bool := false
  /-- The RETAIN entry sequence runs (R145), and a wake that arrived during it (R147), with its slot. -/
  retainEntry : Bool := false
  entryWake : Option WakeSrc := none
  entryAt : Nat := 0
  /-- CRC-32 of the configuration in the retention domain (R124). -/
  retCrc : Nat := 0
  /-- The mode SERVICE was entered from (R132). -/
  serviceFrom : Mode := .run
  deriving DecidableEq, Repr

/-- The JTAG port (R508). -/
structure Jtag where
  ir : JtagIr := .idcode
  reset : Bool := true
  boundary : List Bool := []
  shifted : Nat := 0x1E01456B
  deriving DecidableEq, Repr

/-- Ticks, slots and timetables (chapter 03). -/
structure Clock where
  running : Bool := false
  tick : Nat := 0
  slot : Nat := 0
  curLen : Nat := 0
  /-- Length of the tick before. -/
  prevLen : Nat := 0
  /-- Length that a captured reference gives the next tick (R74, R75). -/
  nextLen : Option Nat := none
  /-- Count the next tick takes, when a MARK realigns it (R403). -/
  setTick : Option Nat := none
  deadline : Nat := 0
  active : TtName := .none
  holdover : Bool := false
  phase : Int := 0
  /-- A reference was matched to the boundary that began this tick, or to the next one (R75). -/
  matched : Bool := false
  matchedNext : Bool := false
  /-- Consecutive missed ticks. -/
  missed : Nat := 0
  refMiss : Nat := 0
  clamped : Nat := 0
  overruns : Nat := 0
  ovrOwner : Nat := 0
  ovrEntry : Nat := 0
  ovrTt : Nat := 0
  swFrom : Nat := 3
  swTo : Nat := 3
  swSlot : Nat := 0
  swTick : Nat := 0
  lenReg : Nat := 100000
  source : Nat := 0
  tickOut : Bool := false
  slip : Nat := 0
  refLoss : Nat := 8
  intakeLead : Nat := 0
  /-- Level the device drives on the TICK ball; none where it does not drive it (R76, R152). -/
  tickPin : Option Bool := none
  /-- Indices of the window entries that run (R60, R68). -/
  openEntries : List Nat := []
  /-- The slot of the last check point, counted from power-on: each acts once. -/
  lastCheck : Option Nat := none
  deriving DecidableEq, Repr

/-- What LOAD read and left (chapter 05), and the declarations of chapter 04 that serve the checks. -/
structure Cfg where
  copySel : Nat := 3
  fallback : Bool := false
  /-- LOAD has ended, and the DEV_CFG registers show its outcome (R125). -/
  loaded : Bool := false
  cfClk : Nat := 0
  sfdpOk : Bool := false
  /-- How the flash is read (R104). -/
  read : FlashRead := {}
  rsnA : Nat := 0x3FFF
  rsnB : Nat := 0x3FFF
  seq : Nat := 0
  crc : Nat := 0
  updState : Nat := 0
  updTarget : Nat := 0
  updOwner : Port := .a
  rsnU : Nat := 0
  /-- An update is open, its target is erased, and how many bytes have been sent (R118, R119). -/
  updErasing : Bool := false
  updSent : Nat := 0
  /-- The first 16 bytes sent: the header's length says which bytes are the trailer magic (R107, R119). -/
  updHead : List Byte := []
  updCommitting : Bool := false
  flash : FlashCmd := .none
  cands : List Candidate := []
  firstCand : Option CopyId := none
  /-- Sections 1 to 5 as words, and the pilot firmware's bytes, as LOAD kept them (R124). -/
  sections : List (List Word) := []
  pilotFw : List Byte := []
  run : Timetable := {}
  hold : Timetable := {}
  store : Timetable := {}
  ringNodes : Nat := 0
  ringHop : Nat := 0
  holdupUs : Nat := 0
  persistRate : Nat := 0
  deriving DecidableEq, Repr

/-- One host port (chapter 07) with its merge buffer (chapter 08). -/
structure PortSt where
  /-- VDDIO is above 1.2 V, and the high I/O range is selected (R503). -/
  vddio : Bool := false
  highRange : Bool := false
  ready : Bool := false
  clock : Nat := 0
  oneS : Bool := false
  wrCode : Nat := 0
  coll : Nat := 0
  badCmd : Nat := 0
  prst : Nat := 0
  resetEnabled : Bool := false
  /-- RST# holds the port in reset (R183). -/
  rstLow : Bool := false
  /-- The slot of the port's last reset (R183). -/
  resetAt : Nat := 0
  /-- The slot in which CS# rises on a RESET PORT that is to act (R183). -/
  resetDue : Option Nat := none
  /-- Words of a WRITE that have yet to cross the wire. -/
  incoming : List Incoming := []
  wq : List WriteItem := []
  rq : List ReadItem := []
  driven : List Driven := []
  /-- Bytes the last READ SFDP returns, each with the absolute slot in which it is driven (R169). -/
  sfdpOut : List (Byte × Nat) := []
  touches : List Touch := []
  merge : List MergeEntry := []
  mergeFree : Nat := 8
  rmw : List Rmw := []
  mAband : Nat := 0
  mEvict : Nat := 0
  mRefuse : Nat := 0
  deriving DecidableEq, Repr

/-- What each party gathers and has captured (R8, R9): snapshots by address of word 0, gathered words by address, and
the word its last control-window read returned. -/
structure PartySt where
  snaps : List (Nat × List Word) := []
  gather : List (Nat × Word) := []
  back : Word := 0
  deriving DecidableEq, Repr

/-- The array, its holds, its checker and its scrubber (chapters 02 and 08). -/
structure Arr where
  /-- Code words, sparse and canonical: an unlisted address holds the code word 0. -/
  mem : List (Nat × Code) := []
  /-- Addresses whose written state is set (R51), ascending. -/
  written : List Nat := []
  holds : List Hold := List.replicate 16 {}
  /-- The slot of each bank's last access, counted from power-on: a slot of a bank takes one access (R20, chapter 03). -/
  lastUse : List (Option Nat) := List.replicate 4 none
  bankRet : List Nat := []
  bankRetPending : List Nat := []
  rateSh : Nat := 0
  rate : Nat := 0
  limit : Nat := 0
  stripeEn : Bool := true
  banks : List ScrubBank := List.replicate 4 {}
  sweeps : Nat := 0
  scrCorr : Nat := 0
  scrUncorr : Nat := 0
  suppr : Nat := 0
  repDrop : Nat := 0
  stripe : Option StripeJob := none
  stripeAddr : Nat := 0
  ranges : List RangePass := []
  stripes : Nat := 0
  stripeFail : Nat := 0
  corr : Nat := 0
  uncorr : Nat := 0
  spares : List Nat := [8, 8, 8, 8]
  retMap : List Retired := List.replicate 32 {}
  retire : Option RetireJob := none
  retState : Nat := 0
  retPage : Nat := 0
  log : List (Option ErrEntry) := List.replicate 64 none
  logHead : Nat := 0
  logWrapped : Bool := false
  logNewest : Option Nat := none
  logOvw : Nat := 0
  rawEn : Bool := false
  rawAddr : Nat := 0
  rawData : Nat := 0
  rawChk : Nat := 0
  /-- The raw operation that waits, with the address and code word it was started with. -/
  rawOp : Option (RawOp × Nat × Code) := none
  rawResult : Nat := 0
  deriving DecidableEq, Repr

/-- The keel store (chapter 09). -/
structure Keel where
  budget : Nat := 0
  overdraft : Nat := 0
  refused : Nat := 0
  overs : Nat := 0
  storeRef : Nat := 0
  poolWaits : Nat := 0
  recallErr : Nat := 0
  storeUs : Nat := 0
  lastCmt : Nat := 0
  /-- Bindings in force, to be written by the next map commit (R241). -/
  logical : List (Nat × Logical) := []
  phys : List (Nat × Phys) := []
  /-- The two map slots; `none` is an invalid slot. A device leaves manufacture with slot 0 valid (R239). -/
  map0 : Option MapCopy := some {}
  map1 : Option MapCopy := none
  stale : List Nat := []
  /-- Physical copies of released stale pages, free at the next map commit (R241). -/
  released : List Nat := []
  pages : List PageRec := []
  reading : Option PageBuf := none
  buffers : List PageBuf := []
  prog : Option Program := none
  uncovered : List StoreRec := []
  commit : Option MapCommit := none
  waiting : Bool := false
  /-- No map commit can free a page for the pages that wait (R232). -/
  stuck : Bool := false
  /-- The next slot makes the check of the pool rule (R232), its absolute number. -/
  poolAt : Option Nat := none
  lastCkpt : Option Nat := none
  /-- FILL has read a map (R239), and the KEEL registers show it (R243). -/
  known : Bool := false
  /-- Neither map slot was valid at FILL (R239). -/
  noMap : Bool := false
  wornFired : Bool := false
  /-- Slot in which the running STORE or RETAIN entry sequence began. -/
  seqStart : Option Nat := none
  nextOrder : Nat := 1
  /-- Free units of the dirty-page book (R462). -/
  free : Nat := 0
  deriving DecidableEq, Repr

/-- Semaphores and mailboxes (chapter 10). -/
structure Comm where
  semL : List SemLocal := List.replicate 64 {}
  semR : List SemRing := List.replicate 16 {}
  claims : List RingClaim := []
  badRel : Nat := 0
  rstRel : Nat := 0
  ringTo : Nat := 0
  chans : List Chan := [{}, {}, { notify := 2 }, {}, { notify := 2 }, {}]
  deriving DecidableEq, Repr

/-- The pilot and its commands (chapter 11). -/
structure Pilot where
  locked : Bool := false
  cmdA : Option Cmd := none
  cmdB : Option Cmd := none
  /-- The current service nonce (R284). -/
  nonce : Option Nat := none
  /-- Ports whose token passed (R287) and whose LEAVE_SERVICE waits, with the slot of the request. -/
  svcReq : List (Port × Nat) := []
  leaveReq : List (Port × Nat) := []
  /-- Ports whose sleep or freeze requests wait. -/
  sleepReq : List Port := []
  freezeReq : List Port := []
  /-- Ports whose freeze has been taken and whose boundary is being fixed (R27, R282). -/
  freezing : List Port := []
  inbox : List PeerMsg := []
  gateRef : Nat := 0
  svcFail : Nat := 0
  peerDrop : Nat := 0
  boat : Lifeboat := {}
  /-- The slot of a pilot fault that waits for its entry to LIMP (R291). -/
  limpDue : Option Nat := none
  /-- Woken since it last ran (R247, R261, R304). -/
  woken : Bool := false
  deriving DecidableEq, Repr

/-- The event controller (chapter 12). -/
structure Events where
  live : Bool := false
  srcs : List Source := List.replicate 64 {}
  recs : List EvRecord := []
  qA : EvQueue := {}
  qB : EvQueue := {}
  qP : EvQueue := {}
  badComp : Nat := 0
  spur : Nat := 0
  /-- A_INT# and B_INT# asserted (R304). -/
  intA : Bool := false
  intB : Bool := false
  /-- Edges placed at the first tick (R295). -/
  first : List Nat := []
  deriving DecidableEq, Repr

/-- The packer (chapter 13). -/
structure Packer where
  nCh : Nat := 0
  descA : Bool := false
  descB : Bool := false
  pre : Nat := 0
  post : Nat := 0
  sealedHold : Nat := 0
  intake : Nat := 0
  frzLen : Nat := 0
  state : Nat := 0
  chans : List PkrChan := List.replicate 16 {}
  /-- First tick and record slot of the history (R321 ff., R355); none while no history exists. -/
  hist : Option (Nat × Nat) := none
  /-- A history is to begin at the next boundary in RUN (R322). -/
  due : Bool := false
  /-- Freeze tick, while a capture runs (R339), and whether a record is open (R356). -/
  frz : Option Nat := none
  recOpen : Bool := false
  /-- Header word 8 of the open record is still to be written (R358). -/
  wordDue : Bool := false
  /-- The slot in which the action of a freeze ends and its boundary is fixed (R27, R82). -/
  fixAt : Option Nat := none
  deriving DecidableEq, Repr

/-- Kist records, seals and tallies (chapter 14). -/
structure Kist where
  slots : Nat := 0
  wRec : Nat := 0
  nextSeq : Nat := 0
  recs : List RecSlot := []
  /-- Slot of the most recently begun history (R355). -/
  lastHist : Nat := 0
  /-- The seal queue's waiting slots, in sequence order, and closed slots outside it (R30). -/
  queue : List Nat := []
  held : List Nat := []
  sealFree : Nat := 5
  active : Option SealJob := none
  /-- Slots of signature slice entries spent on the active work, and on the audit's verification; the slots from `sigSince` on have not
  been counted yet (R362, R365). -/
  sigDone : Nat := 0
  auditDone : Nat := 0
  sigSince : Nat := 0
  attests : List SealJob := []
  lastSig : Option (Nat × List Word) := none
  sealedCnt : Nat := 0
  mismatch : Nat := 0
  repaired : Nat := 0
  noSlot : Nat := 0
  overwritten : Nat := 0
  audit : Nat := 0
  repair : Option Repair := none
  /-- The state each MISMATCH slot held before. -/
  before : List (Nat × SlotState) := []
  tallies : List Tally := List.replicate 16 {}
  guestRej : Nat := 0
  /-- Recoveries that wait for replicas, at most one of each port (R377). -/
  recover : List Recover := []
  deriving DecidableEq, Repr

/-- The ferry ring (chapters 15 and 16). -/
structure Ring where
  up : LinkSt := {}
  dn : LinkSt := {}
  nodeId : Nat := 0
  numbered : Bool := false
  swapped : Bool := false
  dMax : Nat := 0
  uMin : Nat := 0x400
  enumNo : Nat := 0
  /-- An enumeration has given the ring's map; RNG_COUNT shows it. -/
  mapped : Bool := false
  conflict : Bool := false
  teamShort : Bool := false
  kdly : Nat := 0
  rt : Nat := 0
  retxUp : Nat := 0
  retxDn : Nat := 0
  retrains : Nat := 0
  crcErr : Nat := 0
  malform : Nat := 0
  stalls : Nat := 0
  dropHop : Nat := 0
  mkBad : Nat := 0
  mkLate : Nat := 0
  tickSet : Nat := 0
  repRetry : Nat := 0
  repRej : Nat := 0
  semStale : Nat := 0
  breaks : List Nat := []
  cfgAnchor : Bool := false
  guestHold : Nat := 0
  guestEn : Bool := false
  gWords : Nat := 0
  guestPtr : Nat := 0
  /-- Guest slots being filled (R413). -/
  filling : List Filling := []
  enumPhase : EnumPhase := .idle
  enumDMax : Nat := 0
  /-- An ENUM held for a training link (R397): ID to pass on, direction, anchor's identifier. -/
  enumHeld : Option (Nat × Nat × Nat) := none
  /-- Slot in which the held ENUM arrived, or in which the anchor last sent one (R397, R399). -/
  enumAt : Nat := 0
  /-- An ENUM of the running enumeration has given an ID (R398). -/
  gotId : Bool := false
  runBeganAt : Nat := 0
  /-- A MARK of this tick has served as reference (R402). -/
  markTaken : Bool := false
  /-- The record being roped (R412): its slot, its next frame index per member. -/
  roping : Option (Nat × List Nat) := none
  /-- PEER_SEND awaiting DELIV (R418): port, destination node and tick of acceptance. -/
  peers : List (Port × Nat × Nat) := []
  /-- The node left RETAIN from PASS and has not sent PASSOFF yet (R436). -/
  wasPass : Bool := false
  /-- Releases held until a path to node 0 exists (R417). -/
  semHeld : List (List Word) := []
  needASh : Bool := false
  needA : Bool := false
  needBSh : Bool := false
  needB : Bool := false
  why : Nat := 0
  whyChanged : Bool := false
  tLast : Nat := 0
  lastKeep : Option Nat := none
  agreed : Bool := false
  keepMs : Nat := 0
  sleepMs : Nat := 0
  wakeMs : Nat := 0
  keepRx : Nat := 0
  beacons : Nat := 0
  deriving DecidableEq, Repr

/-- Harness monitor, books and stalls (chapter 17). -/
structure Harness where
  lockViol : Nat := 0
  credStall : Nat := 0
  credWho : Nat := 0
  /-- Books that have stalled in this tick (R460). -/
  stalled : List Nat := []
  pins : Pins := {}
  filtSh : Nat := 2
  filt : Nat := 2
  faults : Nat := 0
  frzBad : Nat := 0
  /-- A valid trigger delivered to the check point logic: its slot (R27, R66). -/
  trigger : Option Nat := none
  /-- Fault bits on their way to the event controller: the slot in which each rises there, and its source (R447). -/
  rising : List (Nat × Nat) := []
  auditTick : Nat := 0
  auditFail : Nat := 0
  auditSum : Nat := 0
  auditFails : Nat := 0
  audit : List Word := List.replicate 42 0#14
  deriving DecidableEq, Repr

/-- Logbook and replay (chapter 18). -/
structure Logbook where
  scopeSh : Bool := false
  scope : Bool := false
  enableSh : Bool := true
  enable : Bool := true
  keepSh : Nat := 0x100
  keep : Nat := 0x100
  entries : List LogEntry := []
  cur : List LogRec := []
  capturing : Bool := false
  baseCode : Nat := 1
  /-- The capture queue of 64 words (R471), as the lengths of the pieces in it. -/
  queue : List Nat := []
  gap : Bool := false
  /-- The record of the port's running transaction is dropped from the tick's entry (R471). -/
  cutA : Bool := false
  cutB : Bool := false
  dropped : Nat := 0
  gaps : Nat := 0
  units : List OutUnit := []
  digest : Nat := 0
  frozen : Option Frozen := none
  /-- A freeze due at the next slot 0 (R475): by command of a port or by a record with its sequence. -/
  frzRec : Option Nat := none
  frzCmd : List Port := []
  stopOnDiv : Bool := false
  rState : Nat := 0
  rReason : Nat := 0
  diverged : Bool := false
  spent : Bool := false
  divTick : Nat := 0
  divSlot : Nat := 0
  divKind : Nat := 0
  divPort : Bool := false
  divTicks : Nat := 0
  benchErr : Nat := 0
  replay : Option Replay := none
  /-- REPLAY begins at the next slot 0 (R477). -/
  replayDue : Bool := false
  deriving DecidableEq, Repr

/-- The device: everything but the queue. -/
structure Dev where
  now : Nat := 0
  draws : Nat := 0
  pw : Power := {}
  jt : Jtag := {}
  ck : Clock := {}
  cf : Cfg := {}
  pa : PortSt := {}
  pb : PortSt := {}
  yA : PartySt := {}
  yB : PartySt := {}
  yP : PartySt := {}
  ar : Arr := {}
  kl : Keel := {}
  cm : Comm := {}
  pl : Pilot := {}
  ev : Events := {}
  pk : Packer := {}
  ks : Kist := {}
  rg : Ring := {}
  hn : Harness := {}
  lb : Logbook := {}
  deriving DecidableEq, Repr

/-- The state: the commands that wait, first in first out, and the device. -/
structure State where
  pending : List Instr
  dev : Dev
  deriving DecidableEq, Repr

/-- Why a step could stop. Raised by nobody: the spec gives every command an effect in every state (R87), so no run of
this model faults; safe. -/
inductive Fault where
  /-- Raised by no command; safe. -/
  | unreachable
  deriving DecidableEq, Repr

/-- Why a command could be refused. -/
inductive Refusal where
  /-- The command has no meaning in the model yet; safe. Raised only by an arm of Dispatch.lean. -/
  | notModelled (mnemonic : String)
  deriving DecidableEq, Repr

/-- The state right after VDD has risen above its power-on threshold (R134): OFF, no LIMP cause, no retained state, the
filters inactive (R127), nothing waiting. -/
def State.reset : State := { pending := [], dev := {} }

end Sys2Proof.Machine
end

