-- ==== Sys2Proof/Machine/Ops.lean ====
section
/-!
DEFINITION. The operations the commands share: sparse memory, time, ports and parties, logbook capture and output units,
events, modes and pins, checked reads and writes of the array, the dirty-page book.
-/
namespace Sys2Proof.Machine
open Sys2Proof

/-! ### Sparse memory -/

/-- The code word at an address; an unlisted address holds the code word 0 (R33, R200). -/
def cellsGet : List (Nat × Code) → Nat → Code
  | [], _ => 0#20
  | (k, c) :: r, a => if k = a then c else cellsGet r a

/-- Write one code word, keeping the list ascending and free of the code word 0. -/
def cellsSet : List (Nat × Code) → Nat → Code → List (Nat × Code)
  | [], a, v => if v = 0#20 then [] else [(a, v)]
  | (k, c) :: r, a, v =>
    if k < a then (k, c) :: cellsSet r a v
    else if k = a then (if v = 0#20 then r else (a, v) :: r)
    else if v = 0#20 then (k, c) :: r else (a, v) :: (k, c) :: r

/-- All addresses of a list lie above a bound, ascending, and no entry is the code word 0. -/
def cellsAbove : Nat → List (Nat × Code) → Bool
  | _, [] => true
  | lo, (k, c) :: r => decide (lo ≤ k) && decide (c ≠ 0#20) && cellsAbove (k + 1) r

/-- The canonical form of memory: addresses strictly rising, no entry equal to what an unlisted address holds. -/
def Memory.wf (m : List (Nat × Code)) : Bool := cellsAbove 0 m

/-- Add a number to an ascending list without repeats. -/
def setInsert (a : Nat) : List Nat → List Nat
  | [] => [a]
  | k :: r => if k < a then k :: setInsert a r else if k = a then k :: r else a :: k :: r

/-- The value of a key in an association list. -/
def assoc {β : Type} (l : List (Nat × β)) (k : Nat) : Option β := (l.find? fun p => p.1 == k).map Prod.snd

/-- Set a key of an association list. -/
def assocSet {β : Type} (l : List (Nat × β)) (k : Nat) (v : β) : List (Nat × β) :=
  (k, v) :: l.filter fun p => p.1 != k

/-! ### Time -/

/-- Slots pass: the absolute slot count and, while the tick runs, the slot of the tick (DESIGN CHOICE, log entry 3). -/
def Dev.pass (d : Dev) (dt : Nat) : Dev :=
  { d with now := d.now + dt, ck := { d.ck with slot := d.ck.slot + (if d.ck.running then dt else 0) } }

/-- The slot, counted in the running tick, of an absolute slot not before the tick's start. -/
def Dev.slotAt (d : Dev) (t : Nat) : Nat := d.ck.slot + t - d.now

/-! ### Ports and parties -/

/-- A port's state. -/
def Dev.port (d : Dev) : Port → PortSt
  | .a => d.pa
  | .b => d.pb

/-- Change a port's state. -/
def Dev.modPort (d : Dev) (p : Port) (f : PortSt → PortSt) : Dev :=
  match p with
  | .a => { d with pa := f d.pa }
  | .b => { d with pb := f d.pb }

/-- A party's snapshots and gathered words. -/
def Dev.party (d : Dev) : Party → PartySt
  | .portA => d.yA
  | .portB => d.yB
  | .pilot => d.yP

/-- Change a party's snapshots and gathered words. -/
def Dev.modParty (d : Dev) (y : Party) (f : PartySt → PartySt) : Dev :=
  match y with
  | .portA => { d with yA := f d.yA }
  | .portB => { d with yB := f d.yB }
  | .pilot => { d with yP := f d.yP }

/-- The port a party is, if it is one. -/
def Party.port? : Party → Option Port
  | .portA => some .a
  | .portB => some .b
  | .pilot => none

/-- The port's transactions reach the core: its supply is present, no reset runs, and the mode serves ports with live
accesses (R134, R152, R183, R480). -/
def Dev.portServed (d : Dev) (p : Port) : Bool :=
  (d.port p).vddio && (d.port p).ready && d.pw.mode.timetabled && (d.pw.mode != .replay)

/-- The pilot runs: from LOAD on, while it is not locked (R3, R12, R291). -/
def Dev.pilotRuns (d : Dev) : Bool :=
  !d.pl.locked && (d.pw.mode.timetabled || d.pw.mode == .load || d.pw.mode == .fill || d.pw.mode == .test)

/-- The party's accesses take effect. -/
def Dev.partyActs (d : Dev) (y : Party) : Bool :=
  match y with
  | .portA => d.portServed .a
  | .portB => d.portServed .b
  | .pilot => d.pilotRuns

/-- The owner code of a port's slots (R59). -/
def portCode : Port → Nat
  | .a => 1
  | .b => 2

/-! ### Logbook capture and output units (R465 to R473) -/

/-- The order of record kinds within one slot: the TICK header first, then port A, port B, pins, ring, and the other kinds
ascending (R468). -/
def kindRank (k : Nat) : Nat := if k = 1 then 0 else if k = 2 then 1 else if k = 3 then 2 else if k = 5 then 3
  else if k = 6 ∨ k = 7 ∨ k = 8 then 4 else 5 + k

/-- Place a record by its slot and kind, after those that it does not precede (R468). -/
def insertRec (r : LogRec) : List LogRec → List LogRec
  | [] => [r]
  | x :: xs =>
    if x.slot < r.slot ∨ (x.slot = r.slot ∧ kindRank x.kind ≤ kindRank r.kind) then x :: insertRec r xs
    else r :: x :: xs

/-- The words of a list of records. -/
def recWords : List LogRec → Nat
  | [] => 0
  | r :: rs => r.words.length + recWords rs

/-- The words of whole entries. -/
def entryWords : List LogEntry → Nat
  | [] => 0
  | e :: es => e.words.length + entryWords es

/-- Drop the oldest whole entries of the live logbook until `need` words fit, `lock` of the newest of them being kept
for an export (R472, R476); `none` when they do not fit. -/
def makeRoom : List LogEntry → Nat → Nat → Nat → Option (List LogEntry)
  | [], _, room, need => if need ≤ room then some [] else none
  | e :: es, lock, room, need =>
    if need + entryWords (e :: es) ≤ room then some (e :: es)
    else if lock > 0 then none else makeRoom es lock room need

/-- Live entries that no export in progress has copied yet (R476). -/
def Dev.exportLock (d : Dev) : Nat :=
  max ((d.pl.cmdA.map Cmd.lock).getD 0) ((d.pl.cmdB.map Cmd.lock).getD 0)

/-- The ring words the frozen logbook does not occupy (R472). -/
def Dev.logRoom (d : Dev) : Nat :=
  32768 - (match d.lb.frozen with
    | some f => entryWords f.entries
    | none => 0)

/-- A piece of `n` words enters the capture queue; where it does not fit beside the 11 words kept for END, or the ring has
no space for it, it is dropped and the rest of the tick with it (R471, R472). The answer tells whether it was taken. -/
def Dev.queuePiece (d : Dev) (n : Nat) : Dev × Bool :=
  if d.lb.gap || decide (d.lb.queue.sum + n > 53) then
    ({ d with lb := { d.lb with gap := true, dropped := satInc 14 d.lb.dropped } }, false)
  else
    match makeRoom d.lb.entries d.exportLock (d.logRoom - recWords d.lb.cur) n with
    | some es => ({ d with lb := { d.lb with queue := d.lb.queue ++ [n], entries := es } }, true)
    | none => ({ d with lb := { d.lb with gap := true, dropped := satInc 14 d.lb.dropped } }, false)

/-- The kind of a port's transaction records (R468). -/
def portKind : Port → Nat
  | .a => 2
  | .b => 3

/-- Append words to the last record of a kind; none where the tick holds no such record. -/
def appendLast (k : Nat) (ws : List Word) : List LogRec → Option (List LogRec)
  | [] => none
  | r :: rs =>
    match appendLast k ws rs with
    | some rs' => some (r :: rs')
    | none => if r.kind = k then some ({ r with words := r.words ++ ws } :: rs) else none

/-- Take away the last record of a kind. -/
def dropLast (k : Nat) : List LogRec → List LogRec
  | [] => []
  | r :: rs => if rs.any (fun x => x.kind == k) then r :: dropLast k rs else if r.kind = k then rs else r :: rs

/-- The record of a port's running transaction is dropped. -/
def Dev.recCut (d : Dev) : Port → Bool
  | .a => d.lb.cutA
  | .b => d.lb.cutB

/-- Note whether the record of a port's running transaction is dropped. -/
def Dev.setCut (d : Dev) (p : Port) (x : Bool) : Dev :=
  match p with
  | .a => { d with lb := { d.lb with cutA := x } }
  | .b => { d with lb := { d.lb with cutB := x } }

/-- Two words of a 20- or 21-bit value, the low one first (R7). -/
def twoWords (v : Nat) : List Word := [wordOf v 0, wordOf v 1]

/-- One item crosses the wire while capture runs: it joins its transaction's record, or opens a continuation record of the tick (R469; a
continuation carries slot 0 as its CS# fall, DESIGN CHOICE, log entry 21). A record one of whose items does not fit is dropped whole
and counted once (R471; DEDUCED, log entry 68). -/
def Dev.captureItem (d : Dev) (i : WireItem) : Dev :=
  let k := portKind i.port
  if !d.lb.capturing || d.recCut i.port then d
  else
    let (d, ok) := d.queuePiece i.words.length
    if ok then
      match appendLast k i.words d.lb.cur with
      | some cur => { d with lb := { d.lb with cur := cur } }
      | none =>
        let r : LogRec := { kind := k, slot := 0,
                            words := wd (k + 16 * 7) :: twoWords 0 ++ twoWords i.addr ++ i.words }
        { d with lb := { d.lb with cur := insertRec r d.lb.cur } }
    else { d with lb := { d.lb with cur := dropLast k d.lb.cur } }.setCut i.port true

/-- The header of a transaction's record (R469, R471). -/
def Dev.captureHead (d : Dev) (p : Port) (words : List Word) : Dev :=
  if d.lb.capturing then
    let (d, ok) := d.queuePiece words.length
    let d := d.setCut p (!ok)
    if ok then { d with lb := { d.lb with cur := insertRec { kind := portKind p, slot := d.ck.slot, words } d.lb.cur } } else d
  else d

/-- Capture a record of the running tick, where capture runs and the scope includes its kind (R466, R467, R471). -/
def Dev.capture (d : Dev) (kind slot : Nat) (words : List Word) : Dev :=
  if d.lb.capturing && !(d.lb.scope && (kind == 6 || kind == 7 || kind == 8)) then
    let (d, ok) := d.queuePiece words.length
    if ok then { d with lb := { d.lb with cur := insertRec { kind, slot, words } d.lb.cur } } else d
  else d

/-- Capture a PIN record at the current slot (R470). -/
def Dev.capturePin (d : Dev) (pin value : Nat) : Dev :=
  d.capture 5 d.ck.slot (wd (5 + 16 * pin + 256 * value) :: twoWords d.ck.slot)

/-- Output units are formed where capture runs, and in every tick of a replay (R466, R474). -/
def Dev.emits (d : Dev) : Bool := d.lb.capturing || (d.pw.mode == .replay)

/-- Form an output unit (R473). -/
def Dev.emitAt (d : Dev) (slot kind detail extra v3 v4 : Nat) : Dev :=
  if d.emits then
    let ws := [wd (kind + 16 * detail), wordOf slot 0, wd (field slot 14 6 + 64 * extra), wd v3, wd v4]
    { d with lb := { d.lb with units := d.lb.units ++ [{ kind := kind, slot := slot, words := ws }] } }
  else d

/-- Form an output unit at the current slot. -/
def Dev.emit (d : Dev) (kind detail extra v3 v4 : Nat) : Dev := d.emitAt d.ck.slot kind detail extra v3 v4

/-! ### Events (R294 to R305) -/

/-- The targets of a mask, in the order of R298. -/
def targetsOf (m : Nat) : List Party :=
  (if bit m 0 then [Party.portA] else []) ++ (if bit m 1 then [Party.portB] else [])
    ++ (if bit m 2 then [Party.pilot] else [])

/-- Records are ordered by the slot in which their sources became postable, then by source, then by target (R301); a
record that is being written stays first. -/
def EvRecord.before (x y : EvRecord) : Bool :=
  decide (0 < x.written) || decide (x.at' < y.at') || (x.at' == y.at' && (decide (x.source < y.source)
    || (x.source == y.source && decide (x.target.code ≤ y.target.code))))

/-- Queue a record in its order. -/
def insertEv (y : EvRecord) : List EvRecord → List EvRecord
  | [] => [y]
  | x :: xs => if x.before y then x :: insertEv y xs else y :: x :: xs

/-- A source becomes postable: a record is queued for each target (R298, R299). -/
def Dev.post (d : Dev) (n : Nat) : Dev :=
  let s := d.ev.srcs.getD n {}
  let recs := (targetsOf s.targets).foldl (fun rs y => insertEv
    { source := n, target := y, tick := d.ck.tick, at' := d.now, written := 0 } rs) d.ev.recs
  { d with ev := { d.ev with recs := recs } }

/-- A source fires (R294): the edge is latched, or lost and counted; nothing before the first tick (R295). -/
def Dev.fire (d : Dev) (n : Nat) : Dev :=
  if d.ev.live then
    let s := d.ev.srcs.getD n {}
    if s.pend || s.active then
      { d with ev := { d.ev with srcs := d.ev.srcs.modify n fun s => { s with lost := satInc 8 s.lost } } }
    else
      let d := { d with ev := { d.ev with srcs := d.ev.srcs.modify n fun s => { s with pend := true } } }
      if s.mask then d else d.post n
  else d

/-- An edge placed at the first tick (R295): at once where the controller runs, else with the first tick. -/
def Dev.fireFirst (d : Dev) (n : Nat) : Dev :=
  if d.ev.live then d.fire n else { d with ev := { d.ev with first := setInsert n d.ev.first } }

/-- An ignored write is counted in DEV_LOCKVIOL and LOCK_VIOL fires (R461). -/
def Dev.lockViol (d : Dev) : Dev :=
  { d with hn := { d.hn with lockViol := satInc 14 d.hn.lockViol } }.fire 0

/-- A book gives up a slot: at most one count per book and tick (R460). -/
def Dev.stall (d : Dev) (book : Nat) : Dev :=
  if d.hn.stalled.contains book then d
  else { d with hn := { d.hn with stalled := book :: d.hn.stalled, credStall := satInc 14 d.hn.credStall,
                                  credWho := book } }.fire 38

/-! ### Queues, interrupts and pins -/

/-- A party's event queue. -/
def Dev.evq (d : Dev) : Party → EvQueue
  | .portA => d.ev.qA
  | .portB => d.ev.qB
  | .pilot => d.ev.qP

/-- Change a party's event queue. -/
def Dev.modEvq (d : Dev) (y : Party) (f : EvQueue → EvQueue) : Dev :=
  match y with
  | .portA => { d with ev := { d.ev with qA := f d.ev.qA } }
  | .portB => { d with ev := { d.ev with qB := f d.ev.qB } }
  | .pilot => { d with ev := { d.ev with qP := f d.ev.qP } }

/-- INH conducts from the start of WAKE until OFF or the end of the RETAIN entry (R152, R153). -/
def Dev.inhLevel (d : Dev) : Bool :=
  match d.pw.mode with
  | .off => false
  | .retain => d.pw.retainEntry
  | _ => true

/-- LIMP# in each mode (R152). -/
def Dev.limpLevel (d : Dev) : Bool :=
  match d.pw.mode with
  | .off | .retain | .load | .fill | .test | .store => false
  | .wake => d.pw.limpCause == 5
  | .run | .hold | .service | .replay => d.pw.limpCause != 0
  | .limp => true

/-- An update of the configuration image may be using the flash (R118, R152). -/
def Dev.updating (d : Dev) : Bool := d.cf.updState == 1

/-- CF_CS# in each mode (R152). A start that PFAIL# or an off request ends leaves the flash deselected: the pull-up of OFF holds CF_CS#
high (R139, R140). -/
def Dev.csPad (d : Dev) : Pad :=
  match d.pw.mode with
  | .off | .retain => .pullUp
  | .load => .driven
  | .wake | .fill | .test | .store => .high
  | .run | .hold | .limp | .service | .replay => if d.updating then .driven else .high

/-- CF_SCK in each mode (R152). -/
def Dev.sckPad (d : Dev) : Pad :=
  match d.pw.mode with
  | .off | .retain => .hiZ
  | .load => .driven
  | .wake | .fill | .test | .store => .low
  | .run | .hold | .limp | .service | .replay => if d.updating then .driven else .low

/-- CF_IO[3:0] in each mode (R152). -/
def Dev.ioPad (d : Dev) : Pad :=
  match d.pw.mode with
  | .off | .retain | .wake | .fill | .test | .store => .hiZ
  | .load => .driven
  | .run | .hold | .limp | .service | .replay => if d.updating then .driven else .hiZ

/-- TICK in each mode (R76, R152): an input, or driven, from the end of LOAD. -/
def Dev.tickPad (d : Dev) : Pad :=
  match d.ck.tickPin with
  | some true => .high
  | some false => .low
  | none => .hiZ

/-- A port's interrupt: asserted while its queue holds a record, in the modes that drive it (R152, R304, R313). -/
def Dev.intLevel (d : Dev) (q : EvQueue) : Bool := d.ev.live && d.pw.mode.timetabled && decide (0 < q.cnt)

/-- Form the unit of an output pin that changes (R473; the pins are numbered in the order in which R473 lists them, log
entry 22). -/
def Dev.emitPin (d : Dev) (pin : Nat) (old new : Bool) : Dev :=
  if old == new then d else d.emit 3 (pin + 16 * b2n new) 0 0 0

/-- Bring the output pins INH, LIMP#, A_INT# and B_INT# to the levels the state calls for. -/
def Dev.updPins (d : Dev) : Dev :=
  let inh := d.inhLevel
  let limp := d.limpLevel
  let ia := d.intLevel d.ev.qA
  let ib := d.intLevel d.ev.qB
  let e := (((d.emitPin 0 d.pw.inh inh).emitPin 1 d.pw.limpPin limp).emitPin 2 d.ev.intA ia).emitPin 3 d.ev.intB ib
  { e with pw := { e.pw with inh := inh, limpPin := limp }, ev := { e.ev with intA := ia, intB := ib } }

/-- An interrupt follows its queue in the slot after the one in which a record posts or the target reads (R304). -/
def Dev.updInt (d : Dev) : Dev :=
  let ia := d.intLevel d.ev.qA
  let ib := d.intLevel d.ev.qB
  let next := d.ck.slot + 1
  let a := if d.ev.intA == ia then d else d.emitAt next 3 (2 + 16 * b2n ia) 0 0 0
  let e := if d.ev.intB == ib then a else a.emitAt next 3 (3 + 16 * b2n ib) 0 0 0
  { e with ev := { e.ev with intA := ia, intB := ib } }

/-- A mode change: DEV_MODE, the mode unit, MODE_CHANGE between timetabled modes (R296 row 54), the service nonce void
(R284), raw operations disabled where SERVICE is left (R217), and the pins. -/
def Dev.setMode (d : Dev) (m : Mode) : Dev :=
  if d.pw.mode = m then d.updPins
  else
    let old := d.pw.mode
    let d := (d.emit 6 m.code 0 0 0)
    let raw := d.ar.rawEn && (old != .service)
    let d := { d with pw := { d.pw with mode := m, prevMode := old }, pl := { d.pl with nonce := none },
                      ar := { d.ar with rawEn := raw } }
    (if old.timetabled && m.timetabled then d.fire 54 else d).updPins

/-- A change of the active timetable is recorded with its slot and tick (R83). -/
def Dev.switchTo (d : Dev) (t : TtName) : Dev :=
  if d.ck.active = t then d
  else { d with ck := { d.ck with swFrom := d.ck.active.code, swTo := t.code, swSlot := d.ck.slot,
                                  swTick := d.ck.tick, active := t } }

/-! ### Holds and regions -/

/-- The hold a page lies in (R42). -/
def Dev.holdOf (d : Dev) (page : Nat) : Option Nat :=
  d.ar.holds.findIdx? fun h => decide (h.base ≤ page) && decide (page < h.base + h.pages)

/-- A hold by its number. -/
def Dev.hold (d : Dev) (n : Nat) : Hold := d.ar.holds.getD n {}

/-- The bank of an address (R37). -/
def bankOf (a : Nat) : Nat := a / 524288

/-- The page of an address. -/
def pageOf (a : Nat) : Nat := a / 1024

/-- An address of a word that the array stores: data array or event queue pages (R40). -/
def isArray (a : Nat) : Bool := decide (a < 0x1F0000) || (decide (0x1F4000 ≤ a) && decide (a < 0x1F7000))

/-- An address of the hold area. -/
def inHoldArea (a : Nat) : Bool := decide (a < 0x1E0000)

/-- The bank an array word lies in is retired (R216). -/
def Dev.bankDead (d : Dev) (a : Nat) : Bool := d.ar.bankRet.contains (bankOf a)

/-! ### The array (R187 to R193, R209) -/

/-- The code word that an access to an address finds: in the stripe buffer while the stripe is there (R209). -/
def Dev.rawGet (d : Dev) (a : Nat) : Code :=
  match d.ar.stripe with
  | some j =>
    match j.buf[a - j.base]? with
    | some b => if j.base ≤ a then b.code else cellsGet d.ar.mem a
    | none => cellsGet d.ar.mem a
  | none => cellsGet d.ar.mem a

/-- The outcome with which the stripe buffer holds a word that was copied corrected (R208, R209). -/
def Dev.bufferedAs (d : Dev) (a : Nat) : Option Decoded :=
  d.ar.stripe.bind fun j => if j.base ≤ a then (j.buf[a - j.base]?).bind Buffered.was else none

/-- Store a code word where an access to an address finds it (R209). -/
def Dev.rawSet (d : Dev) (a : Nat) (c : Code) : Dev :=
  match d.ar.stripe with
  | some j =>
    if j.base ≤ a ∧ a < j.base + j.buf.length then
      let j' := { j with buf := j.buf.set (a - j.base) { code := c } }
      let mem := if j.phase = .back ∧ a < j.base + j.idx then cellsSet d.ar.mem a c else d.ar.mem
      { d with ar := { d.ar with stripe := some j', mem := mem } }
    else { d with ar := { d.ar with mem := cellsSet d.ar.mem a c } }
  | none => { d with ar := { d.ar with mem := cellsSet d.ar.mem a c } }

/-- Enter an error into the log (R212, R213): fold it into the newest entry or write the entry at the head. -/
def Dev.logErr (d : Dev) (addr owner : Nat) (kind : LogKind) (syn : Nat) (par : Bool) (loc : Locus) : Dev :=
  let fold : Option ErrEntry := (d.ar.logNewest.bind fun i => (d.ar.log.getD i none)).filter
    fun e => decide (e.addr = addr) && decide (e.kind = kind) && decide (e.syndrome = syn)
  match fold, d.ar.logNewest with
  | some e, some i =>
    { d with ar := { d.ar with log := d.ar.log.set i (some { e with repeats := satInc 5 e.repeats }) } }
  | _, _ =>
    let h := d.ar.logHead
    let e : ErrEntry := { addr, owner, kind, syndrome := syn, parity := par, locus := loc, repeats := 0,
                          tick := d.ck.tick % 16384 }
    let overs := (d.ar.log.getD h none).isSome
    let ovw := if overs then satInc 14 d.ar.logOvw else d.ar.logOvw
    { d with ar := { d.ar with log := d.ar.log.set h (some e), logNewest := some h, logHead := (h + 1) % 64,
                               logWrapped := d.ar.logWrapped || decide (h = 63), logOvw := ovw } }

/-- The CHECK record of a read that is not clean, or of a stripe failure (R468, R470). -/
def Dev.captureCheck (d : Dev) (a owner syn : Nat) (par stripe : Bool) : Dev :=
  let s := d.ck.slot
  d.capture 10 s ([wd (10 + 16 * syn + 512 * b2n par + 1024 * b2n stripe + 2048 * (owner % 8)),
    wordOf s 0, wd (field s 14 6 + 8192 * (owner / 8))] ++ twoWords a)

/-- An address enters its bank's repair queue, once, while there is room (R191). -/
def Dev.queueRepair (d : Dev) (a : Nat) : Dev :=
  let b := d.ar.banks.getD (bankOf a) {}
  if b.repair.contains a then d
  else if b.repair.length < 16 then
    { d with ar := { d.ar with banks := d.ar.banks.modify (bankOf a) fun b => { b with repair := b.repair ++ [a] } } }
  else { d with ar := { d.ar with repDrop := satInc 14 d.ar.repDrop } }

/-- The effects of a read that is corrected or uncorrectable (R191, R193): log, count, event, CHECK record, repair. -/
def Dev.noteCheck (d : Dev) (a owner : Nat) (r : Decoded) : Dev :=
  match r.out with
  | .clean => d
  | .corrected =>
    let d := (d.captureCheck a owner r.syndrome r.parity false).logErr a owner .corrected r.syndrome r.parity r.locus
    let d := { d with ar := { d.ar with corr := satInc 14 d.ar.corr } }.fire 16
    if owner = 6 then d else d.queueRepair a
  | .uncorrectable =>
    let d := (d.captureCheck a owner r.syndrome r.parity false).logErr a owner .uncorrectable r.syndrome r.parity
      r.locus
    { d with ar := { d.ar with uncorr := satInc 14 d.ar.uncorr } }.fire 17

/-- What a replay makes of a read (R479): the logged outcome where a CHECK record names the read, else clean with a bench
error corrected and counted. -/
def Dev.replayRead (d : Dev) (a owner : Nat) (live : Decoded) : Dev × Decoded :=
  match d.lb.replay with
  | none => (d, live)
  | some r =>
    let hit := r.checks.find? fun c => decide (c.slot = d.ck.slot) && !bit (c.words.getD 0 0#14).toNat 10 &&
      decide (ofWords (c.words.drop 3) % 2097152 = a) &&
      decide (field (c.words.getD 0 0#14).toNat 11 3 + 8 * field (c.words.getD 2 0#14).toNat 13 1 = owner)
    match hit with
    | some c =>
      let syn := field (c.words.getD 0 0#14).toNat 4 5
      let par := bit (c.words.getD 0 0#14).toNat 9
      let out := if par && (syn == 0 || syn == 1 || syn == 2 || syn == 4 || syn == 8 || syn == 16
          || (columnBit syn).isSome) then Check.corrected else Check.uncorrectable
      let loc := if out = .uncorrectable then Locus.multiple else if syn = 0 then Locus.parity
        else if (columnBit syn).isSome then Locus.data else Locus.check
      (d, { data := live.data, out := out, syndrome := syn, parity := par, locus := loc })
    | none =>
      match live.out with
      | .clean => (d, live)
      | _ => ({ d with lb := { d.lb with benchErr := satInc 14 d.lb.benchErr } },
              { live with out := .clean, syndrome := 0, parity := false, locus := .none })

/-- What the checker makes of an address: a retired bank reads uncorrectable with data 0 (R216), its check bits a free
value; a word that the stripe buffer holds corrected reads as it was copied (R209). -/
def Dev.checkAt (d : Dev) (a : Nat) : Decoded :=
  if d.bankDead a then
    let c := (Config.rawRetired d.draws).toNat
    { data := 0#14, out := .uncorrectable, syndrome := c % 32, parity := bit c 5, locus := .multiple }
  else (d.bufferedAs a).getD (decodeCode (d.rawGet a))

/-- A read of an array word by the block with an owner code, through the checker (R188 to R193). -/
def Dev.readArr (d : Dev) (owner a : Nat) : Dev × Decoded :=
  let r := d.checkAt a
  let d := if d.bankDead a then { d with draws := d.draws + 1 } else d
  let (d, r) := if d.pw.mode = .replay then d.replayRead a owner r else (d, r)
  (d.noteCheck a owner r, r)

/-- Any write reached the word since the scrubber's read of it (R203). -/
def Dev.touchScrub (d : Dev) (a : Nat) : Dev :=
  let hit : WriteBack → WriteBack := fun w => if w.addr = a then { w with touched := true } else w
  let mark : ScrubBank → ScrubBank := fun b => { b with rwb := b.rwb.map hit, wb := b.wb.map hit }
  { d with ar := { d.ar with banks := d.ar.banks.modify (bankOf a) mark } }

/-! ### The dirty-page book (R224 to R226, R239) -/

/-- The keel store keeps a book: not under the harbour image, not with LIMP cause 4 (R236, R239). -/
def Dev.keelKeeps (d : Dev) : Bool := (d.cf.copySel != 2) && !d.kl.noMap

/-- The page's state, if it is not CLEAN (R224). -/
def Dev.pageRec (d : Dev) (page : Nat) : Option PageRec := d.kl.pages.find? fun r => r.page == page

/-- The address lies in a persistent hold. -/
def Dev.persistent (d : Dev) (a : Nat) : Bool :=
  match d.holdOf (pageOf a) with
  | some n => (d.hold n).persistent
  | none => false

/-- A port write that would dirty a clean page is refused at the bound (R225). -/
def Dev.budgetRefuses (d : Dev) (a : Nat) : Bool :=
  d.persistent a && d.keelKeeps && (d.pageRec (pageOf a)).isNone && decide (d.kl.budget ≤ d.kl.pages.length)

/-- The page store has already read the word: it is buffered, programming, or past this offset of its read (R224). -/
def Dev.storeHasRead (d : Dev) (a : Nat) : Bool :=
  match d.kl.reading with
  | some b => if b.page = pageOf a then decide (a % 1024 < b.read) else true
  | none => true

/-- The logical page bound to an array page (R220). -/
def Dev.logicalOf (d : Dev) (page : Nat) : Option Nat :=
  (d.kl.logical.find? fun x => x.2.page == some page).map Prod.fst

/-- The page lies in the tally-backing hold. -/
def Dev.tallyPage (d : Dev) (page : Nat) : Bool :=
  match d.holdOf page with
  | some n => (d.hold n).policy == .tally
  | none => false

/-- The order of R233: tally-backing pages first, then by the slot in which they left CLEAN, then by page. -/
def Dev.storeBefore (d : Dev) (p q : Nat) : Bool :=
  let key := fun x => ((d.pageRec x).map PageRec.since).getD 0
  if d.tallyPage p != d.tallyPage q then d.tallyPage p
  else decide (key p < key q) || (key p == key q && decide (p ≤ q))

/-- The first of a list of pages in the order of R233. -/
def Dev.firstPage (d : Dev) : List Nat → Option Nat
  | [] => none
  | p :: ps =>
    match d.firstPage ps with
    | some q => if d.storeBefore p q then some p else some q
    | none => some p

/-- Pages that wait to be read: DIRTY, in the order of R233. -/
def Dev.nextToRead (d : Dev) : Option Nat :=
  d.firstPage ((d.kl.pages.filter fun r => r.state == .dirty).map PageRec.page)

/-- The page being programmed is still being read (DEDUCED, log entry 45). -/
def Dev.progReads (d : Dev) : Bool :=
  match d.kl.prog, d.kl.reading with
  | some g, some r => (g.buf.page == r.page) && !g.buf.move
  | _, _ => false

/-- Page stores in flight (R227). -/
def Dev.inFlight (d : Dev) : Nat :=
  d.kl.buffers.length + (if d.kl.reading.isSome && !d.progReads then 1 else 0) + (if d.kl.prog.isSome then 1 else 0)

/-- A page's read begins when the previous read has ended and a buffer is free (R227); none while no page can be programmed for want
of a free one (R232). -/
def Dev.beginRead (d : Dev) : Dev :=
  if d.kl.reading.isSome || decide (4 ≤ d.inFlight) || d.kl.stuck then d
  else match d.nextToRead with
    | some p =>
      let f : PageRec → PageRec := fun x => if x.page = p then { x with state := .storing } else x
      { d with kl := { d.kl with reading := some { page := p, logical := (d.logicalOf p).getD 0 },
                                 pages := d.kl.pages.map f } }
    | none => d

/-- An accepted write changes the state of its page (R224, R226). -/
def Dev.noteDirty (d : Dev) (a : Nat) : Dev :=
  if d.persistent a && d.keelKeeps then
    match d.pageRec (pageOf a) with
    | some r =>
      if r.state = .storing && d.storeHasRead a then
        let redirty : PageRec → PageRec := fun x => if x.page = r.page then { x with state := .redirty } else x
        { d with kl := { d.kl with pages := d.kl.pages.map redirty } }
      else d
    | none =>
      let new : PageRec := { page := pageOf a, state := .dirty, since := d.now }
      if d.kl.pages.length < d.kl.budget then
        { d with kl := { d.kl with pages := d.kl.pages ++ [new], free := d.kl.free - 1 } }.beginRead
      else
        { d with kl := { d.kl with pages := d.kl.pages ++ [new], overdraft := d.kl.overdraft + 1,
                                   overs := satInc 14 d.kl.overs } }.beginRead
  else d

/-- Form the unit of an array write (R473). -/
def Dev.emitWrite (d : Dev) (a : Nat) (w : Word) : Dev := d.emit 2 0 (field a 14 7) (a % 16384) w.toNat

/-- No write of a word takes effect: its bank is retired (R216), or STORE runs and its hold is persistent (R237). -/
def Dev.writeHeld (d : Dev) (a : Nat) : Bool := d.bankDead a || ((d.pw.mode == .store) && d.persistent a)

/-- A write of a data word by any block: a fresh code word (R192, R216, R224, R237). -/
def Dev.writeArr (d : Dev) (a : Nat) (w : Word) : Dev :=
  if d.writeHeld a then d
  else (((d.rawSet a (encodeWord w)).touchScrub a).emitWrite a w).noteDirty a

/-- Write consecutive words from an address, in order. -/
def Dev.writeRun (d : Dev) (a : Nat) : List Word → Dev
  | [] => d
  | w :: ws => (d.writeArr a w).writeRun (a + 1) ws

/-- Read consecutive words by one block, keeping the outcomes. -/
def Dev.readRun (d : Dev) (owner a : Nat) : Nat → Dev × List Decoded
  | 0 => (d, [])
  | n + 1 =>
    let (d, r) := d.readArr owner a
    let (d, rs) := d.readRun owner (a + 1) n
    (d, r :: rs)

/-- The data of a word that a block reads through the checker, as a number. -/
def Dev.readNat (d : Dev) (owner a : Nat) : Dev × Nat :=
  let (d, r) := d.readArr owner a
  (d, r.data.toNat)

/-- One draw of the random source: a free value, or the played one (R284, R479), with its RAND record (R470). -/
def Dev.draw (d : Dev) : Dev × Nat :=
  match (d.lb.replay.map fun r => r.rand) with
  | some (v :: vs) =>
    ({ d with lb := { d.lb with replay := d.lb.replay.map fun r => { r with rand := vs } } }, v)
  | _ =>
    let v := (Config.random d.draws).toNat
    let d := { d with draws := d.draws + 1 }
    (d.capture 9 d.ck.slot (wd 9 :: toWords v 4), v)

end Sys2Proof.Machine
end

