-- ==== Sys2Proof/Machine/Operands.lean ====
section
/-!
DEFINITION. What an address names (chapter 02) and who owns a slot of a bank (chapter 03).
-/
namespace Sys2Proof.Machine
open Sys2Proof

/-- The regions of the address space (02_words_and_holds, The address space). -/
inductive Region where
  | hold (n : Nat)
  | openArray
  | reserve
  | queue
  | window
  deriving DecidableEq, Repr

/-- The region of an address (R38 to R42). -/
def Dev.region (d : Dev) (a : Nat) : Region :=
  if a < 0x1E0000 then
    match d.holdOf (pageOf a) with
    | some n => .hold n
    | none => .openArray
  else if a < 0x1F0000 then .reserve
  else if 0x1F4000 ≤ a ∧ a < 0x1F7000 then .queue
  else .window

/-- The timetable a name stands for. -/
def Dev.ttOf (d : Dev) : TtName → Timetable
  | .run => d.cf.run
  | .hold => d.cf.hold
  | .store => d.cf.store
  | .none => {}

/-- The first slot of an entry in a tick of length `len` (R61). -/
def Window.start (w : Window) (len : Nat) : Nat := if w.endAnchored then len - w.first else w.first

/-- The last slot of an entry in a tick of length `len` (R61). -/
def Window.stop (w : Window) (len : Nat) : Nat := if w.endAnchored then len - 1 else w.last

/-- The entry covers a slot of a tick of length `len` (R61, R94). -/
def Window.covers (w : Window) (len slot : Nat) : Bool := decide (w.start len ≤ slot) && decide (slot ≤ w.stop len)

/-- The entry names a bank. -/
def Window.hasBank (w : Window) (bank : Nat) : Bool := bit w.banks bank

/-- The rota code of a bank at a slot (R59). -/
def Timetable.rotaAt (t : Timetable) (bank slot : Nat) : Nat := (t.rota.getD bank []).getD (slot % 32) 0

/-- The owner of a slot of a bank under a timetable: the window entry that covers it, but never in a port's position, and
otherwise the rota (R60, R62). -/
def Timetable.ownerAt (t : Timetable) (len bank slot : Nat) : Nat :=
  let r := t.rotaAt bank slot
  if r = 1 ∨ r = 2 then r
  else match t.windows.find? fun w => w.hasBank bank && w.covers len slot with
    | some w => w.owner
    | none => r

/-- The owner of a slot of the running tick (R20). -/
def Dev.ownerAt (d : Dev) (bank slot : Nat) : Nat := (d.ttOf d.ck.active).ownerAt d.ck.curLen bank slot

/-- The block with an owner code may access a bank now: the slot of the bank is its own, and no access has taken it (R20, R37,
R62). -/
def Dev.mayUse (d : Dev) (owner bank : Nat) : Bool :=
  d.ownerAt bank d.ck.slot == owner && (d.ar.lastUse.getD bank none != some d.now)

/-- A bank's slot is taken. -/
def Dev.useBank (d : Dev) (bank : Nat) : Dev :=
  { d with ar := { d.ar with lastUse := d.ar.lastUse.set bank (some d.now) } }

/-- Some entry of a task covers the current slot. -/
def Dev.taskNow (d : Dev) (t : Task) : Bool :=
  (d.ttOf d.ck.active).windows.any fun w => w.task == t && w.covers d.ck.curLen d.ck.slot

/-- The window entry of an index in the active timetable. -/
def Dev.entry (d : Dev) (e : Nat) : Option Window := (d.ttOf d.ck.active).windows[e]?

end Sys2Proof.Machine
end

