-- ==== Sys2Proof/Machine/Image.lean ====
section
/-!
DEFINITION. A copy of the image: its header, sections and trailer, its timetables, and every check that LOAD makes of it,
by reason code (R88 to R99, R107 to R113, R56, R316, R351, R368, R420, R444).
-/
namespace Sys2Proof.Machine
open Sys2Proof

/-! ### Header and section table (R107, R108) -/

/-- The little-endian value of `n` bytes at an offset. -/
def leAt (bs : List Byte) (off n : Nat) : Nat := leBytes ((bs.drop off).take n)

/-- The header magic is right (R107). -/
def magicOk (h : List Byte) : Bool :=
  h.take 8 == [0x4C#8, 0x45#8, 0x4E#8, 0x4B#8, 0x01#8, 0x00#8, 0x06#8, 0x00#8]

/-- The sequence of a header. -/
def hdrSeq (h : List Byte) : Nat := leAt h 8 4

/-- The length of a copy. -/
def hdrLen (h : List Byte) : Nat := leAt h 12 4

/-- The clock divider of a copy. -/
def hdrDiv (h : List Byte) : Nat := leAt h 16 1

/-- Entry `i` of the section table: type, offset, length, CRC. -/
def secEntry (h : List Byte) (i : Nat) : Nat × Nat × Nat × Nat :=
  let o := 32 + 16 * i
  (leAt h o 2, leAt h (o + 4) 4, leAt h (o + 8) 4, leAt h (o + 12) 4)

/-- The six entries. -/
def secTable (h : List Byte) : List (Nat × Nat × Nat × Nat) := (List.range 6).map (secEntry h)

/-- Two sections overlap. -/
def secOverlap (a b : Nat × Nat × Nat × Nat) : Bool :=
  decide (a.2.1 < b.2.1 + b.2.2.1) && decide (b.2.1 < a.2.1 + a.2.2.1)

/-- Some pair of a list is related. -/
def anyPair {α : Type} (f : α → α → Bool) : List α → Bool
  | [] => false
  | x :: xs => xs.any (f x) || anyPair f xs

/-- The first reason of a list of reasons with their conditions, in order; 0 where none applies (R99). -/
def firstReason : List (Nat × Bool) → Nat
  | [] => 0
  | (r, b) :: rs => if b then r else firstReason rs

/-- Reasons 0x0001 to 0x0003, decided from the header alone (R106, R107, R108). -/
def headerReason (h : List Byte) : Nat :=
  let len := hdrLen h
  let t := secTable h
  let types := t.map Prod.fst
  firstReason
    [(1, !magicOk h),
     (2, decide (524288 < len) || decide (len < 388)
        || t.any fun e => decide (e.2.1 < 0x80) || decide (len < e.2.1 + e.2.2.1 + 260)),
     (3, !((List.range 6).all fun i => types.contains (i + 1)) || anyPair secOverlap t)]

/-- The bytes of a section of a type. -/
def secBytes (c : List Byte) (ty : Nat) : List Byte :=
  match (secTable c).find? fun e => e.1 == ty with
  | some e => (c.drop e.2.1).take e.2.2.1
  | none => []

/-- The 14-bit words of a section's bytes (R109). -/
def unitWords : List Byte → List Word
  | a :: b :: r => wd (a.toNat + 256 * b.toNat) :: unitWords r
  | _ => []

/-- A section whose bytes are no words: an odd length or a unit with bit 14 or 15 set (R109). -/
def unitsBad : List Byte → Bool
  | [] => false
  | [_] => true
  | _ :: b :: r => decide (64 ≤ b.toNat) || unitsBad r

/-- Word `i` of a section. -/
def wAt (ws : List Word) (i : Nat) : Nat := (ws.getD i 0#14).toNat

/-- A word has a bit beyond a mask of its low `n` bits. -/
def fieldOver (ws : List Word) (i n : Nat) : Bool := decide (2 ^ n ≤ wAt ws i)

/-! ### The timetable section (R88 to R94) -/

/-- The word at which a timetable begins, after those before it. -/
def ttBase (ws : List Word) : Nat → Nat
  | 0 => 17
  | k + 1 => let b := ttBase ws k; b + 45 + 5 * (wAt ws (b + 44) % 512)

/-- The number of window entries of a timetable. -/
def ttCount (ws : List Word) (k : Nat) : Nat := wAt ws (ttBase ws k + 44) % 512

/-- The rota of a bank at a base (R91). -/
def rotaOf (ws : List Word) (base bank : Nat) : List Nat :=
  (List.range 32).map fun p => field (wAt ws (base + 11 * bank + p / 3)) (4 * (p % 3)) 4

/-- A window entry at a base (R92). -/
def windowOf (ws : List Word) (b : Nat) : Window :=
  let w := wAt ws b
  { owner := w % 16, banks := field w 4 4, endAnchored := bit w 8,
    task := (Task.ofCode (field w 9 4)).getD .intake, first := wAt ws (b + 1) + 16384 * field (wAt ws (b + 2)) 0 6,
    last := wAt ws (b + 3) + 16384 * field (wAt ws (b + 4)) 0 6 }

/-- A timetable of the section: 0 RUN, 1 HOLD, 2 STORE. -/
def timetableOf (ws : List Word) (k : Nat) : Timetable :=
  let b := ttBase ws k
  { rota := (List.range 4).map (rotaOf ws b),
    windows := (List.range (ttCount ws k)).map fun i => windowOf ws (b + 45 + 5 * i) }

/-- Reason 0x0031. -/
def ttMalformed (ws : List Word) : Bool :=
  decide (wAt ws 0 % 16 ≠ 1) || decide (256 < ttCount ws 0) || decide (256 < ttCount ws 1)
    || decide (256 < ttCount ws 2) || decide (ws.length ≠ 152 + 5 * (ttCount ws 0 + ttCount ws 1 + ttCount ws 2))

/-- The bits of each header word that the table of R89 lists. -/
def ttHeaderBits : List Nat := [4, 14, 6, 3, 13, 8, 14, 9, 8, 9, 8, 11, 9, 10, 14, 13, 12]

/-- A window entry with a reserved bit, owner or task (R92, R93). -/
def entryReserved (ws : List Word) (b : Nat) : Bool :=
  fieldOver ws b 13 || fieldOver ws (b + 2) 6 || fieldOver ws (b + 4) 6 || decide (10 < wAt ws b % 16)
    || (Task.ofCode (field (wAt ws b) 9 4)).isNone

/-- A timetable with a reserved bit, owner or task. -/
def ttReservedAt (ws : List Word) (k : Nat) : Bool :=
  let b := ttBase ws k
  ((List.range 44).any fun j => fieldOver ws (b + j) (if j % 11 = 10 then 8 else 12)
      || decide (10 < wAt ws (b + j) % 16) || decide (10 < field (wAt ws (b + j)) 4 4)
      || decide (10 < field (wAt ws (b + j)) 8 4))
    || fieldOver ws (b + 44) 9
    || (List.range (ttCount ws k)).any fun i => entryReserved ws (b + 45 + 5 * i)

/-- Reason 0x0032. -/
def ttReserved (ws : List Word) : Bool :=
  ((List.range 17).any fun i => fieldOver ws i (ttHeaderBits.getD i 14)) || decide (wAt ws 3 % 4 = 3)
    || ttReservedAt ws 0 || ttReservedAt ws 1 || ttReservedAt ws 2

/-- tick_slots of the section. -/
def hTick (ws : List Word) : Nat := wAt ws 1 + 16384 * (wAt ws 2 % 64)

/-- slip_max of the section. -/
def hSlip (ws : List Word) : Nat := wAt ws 4

/-- Lmin (R94). -/
def lMin (ws : List Word) : Nat := hTick ws - hSlip ws

/-- Lmax (R94). -/
def lMax (ws : List Word) : Nat := hTick ws + hSlip ws

/-- Tick lengths out of the ranges of reason 0x0033. -/
def lengthBad (tick slip : Nat) : Bool :=
  decide (tick % 32 ≠ 0) || decide (tick < 20000) || decide (1000000 < tick) || decide (tick - slip < 20000)
    || decide (1000000 < tick + slip)

/-- tick_out with the TICK pin as source (reason 0x0033). -/
def tickPinBad (source : Nat) (out : Bool) : Bool := out && decide (source = 1)

/-- Reason 0x0033. -/
def ttRanges (ws : List Word) : Bool :=
  lengthBad (hTick ws) (hSlip ws) || decide (wAt ws 5 = 0) || tickPinBad (wAt ws 3 % 4) (bit (wAt ws 3) 2)
    || decide (wAt ws 6 = 0) || decide (lMin ws ≤ wAt ws 6)

/-- The task may stand in a timetable: 0 RUN, 1 HOLD, 2 STORE (R93). -/
def Task.allowedIn (t : Task) (k : Nat) : Bool :=
  decide (k < 2) || (t == .keepAlive) || (t == .replication)

/-- An entry that breaks reason 0x0034. -/
def entryBad (lmin k : Nat) (w : Window) : Bool :=
  decide (w.banks = 0) || decide (w.owner ≠ w.task.owner) || !w.task.allowedIn k
    || (if w.endAnchored then decide (w.first = 0) || decide (lmin < w.first) || decide (w.last ≠ 0)
        else decide (w.last < w.first) || decide (lmin ≤ w.last))

/-- Two entries overlap in a tick of a length (R94). -/
def overlapAt (len : Nat) (a b : Window) : Bool :=
  decide (a.start len ≤ b.stop len) && decide (b.start len ≤ a.stop len)

/-- Two entries overlap at Lmin or Lmax in a shared bank (R94, reason 0x0035). -/
def entriesOverlap (lmin lmax : Nat) (a b : Window) : Bool :=
  decide (a.banks &&& b.banks ≠ 0) && (overlapAt lmin a b || overlapAt lmax a b)

/-- The entries of a task. -/
def Timetable.ofTask (t : Timetable) (k : Task) : List Window := t.windows.filter fun w => w.task == k

/-- Reason 0x0036: not exactly one intake entry, end-anchored with the lead of the header. -/
def intakeBad (lead : Nat) (t : Timetable) : Bool :=
  match t.ofTask .intake with
  | [w] => !w.endAnchored || decide (w.first ≠ lead)
  | _ => true

/-- An entry ends before another begins, at Lmin and at Lmax. -/
def endsBefore (lmin lmax : Nat) (a b : Window) : Bool :=
  decide (a.stop lmin < b.start lmin) && decide (a.stop lmax < b.start lmax)

/-- Reason 0x0037. -/
def orderBad (lmin lmax : Nat) (t : Timetable) : Bool :=
  !((t.ofTask .coding).all fun c => (t.ofTask .intake).all fun i => endsBefore lmin lmax c i)
    || !((t.ofTask .tally).all fun c => (t.ofTask .checkpoint).all fun i => endsBefore lmin lmax c i)

/-- An entry of one of the three timetables breaks reason 0x0034. -/
def rangesBad (lmin : Nat) (run hold store : Timetable) : Bool :=
  run.windows.any (entryBad lmin 0) || hold.windows.any (entryBad lmin 1) || store.windows.any (entryBad lmin 2)

/-- Reason 0x0035. -/
def overlapsBad (lmin lmax : Nat) (run hold store : Timetable) : Bool :=
  [run, hold, store].any fun t => anyPair (entriesOverlap lmin lmax) t.windows

/-- Reason 0x0037 in one of the three timetables. -/
def ordersBad (lmin lmax : Nat) (run hold store : Timetable) : Bool := [run, hold, store].any (orderBad lmin lmax)

/-- A port's positions in a bank's rota satisfy R63. -/
def portOk (rota : List Nat) (code : Nat) : Bool :=
  let at' := fun p => rota.getD (p % 32) 0 == code
  decide (8 ≤ (rota.filter fun c => c == code).length)
    && (List.range 32).all fun p => !at' p || at' (p + 1) || at' (p + 2) || at' (p + 3) || at' (p + 4)

/-- Reason 0x0038. -/
def portsBad (t : Timetable) : Bool := !(t.rota.all fun r => portOk r 1 && portOk r 2)

/-- The port codes of a rota, other codes as 0. -/
def portCodes (r : List Nat) : List Nat := r.map fun c => if c = 1 ∨ c = 2 then c else 0

/-- The two lists have the same members. -/
def sameMembers (a b : List Window) : Bool := (a.all fun x => b.contains x) && b.all fun x => a.contains x

/-- Reason 0x0039. -/
def holdDiffers (run hold : Timetable) : Bool :=
  decide (run.rota.map portCodes ≠ hold.rota.map portCodes) || !sameMembers (run.ofTask .intake) (hold.ofTask .intake)
    || !sameMembers (run.ofTask .coding) (hold.ofTask .coding)

/-- Reason 0x003A. -/
def storeBad (t : Timetable) : Bool :=
  (t.rota.any fun r => r.any fun c => c == 3 || c == 4 || c == 6)
    || (t.windows.any fun w => w.owner == 3 || w.owner == 4 || w.owner == 6)
    || !(t.rota.all fun r => decide (16 ≤ (r.filter fun c => c == 7).length))

/-! ### The holds section (R56) -/

/-- The number of entries. -/
def holdCount (ws : List Word) : Nat := wAt ws 0 % 32

/-- The hold that entry `i` declares. -/
def holdEntry (ws : List Word) (i : Nat) : Hold :=
  let a := wAt ws (4 + 4 * i)
  { base := wAt ws (2 + 4 * i) % 2048, pages := wAt ws (3 + 4 * i) % 2048, persistent := bit a 0,
    policy := Policy.ofCode (field a 1 2), sealed := bit a 3, rope := field a 4 3, writeA := bit a 7, writeB := bit a 8 }

/-- The hold number of entry `i`. -/
def holdNo (ws : List Word) (i : Nat) : Nat := wAt ws (1 + 4 * i) % 16

/-- The declared holds. -/
def holdList (ws : List Word) : List Hold := (List.range (holdCount ws)).map (holdEntry ws)

/-- Two holds share a page. -/
def holdsShare (a b : Hold) : Bool := decide (a.base < b.base + b.pages) && decide (b.base < a.base + a.pages)

/-- The reasons of R56 that the declared holds themselves decide, 0x0024 to 0x0029, in table order. -/
def holdsReasons (hs : List Hold) : List (Nat × Bool) :=
  [(0x24, hs.any fun h => decide (h.pages = 0) || decide (1920 < h.base + h.pages)),
   (0x25, anyPair holdsShare hs),
   (0x26, hs.any fun h => (h.policy == .vault || h.policy == .tally) && !h.persistent),
   (0x27, hs.any fun h => ((h.sealed || h.policy == .tally) && (h.writeA || h.writeB))
      || (h.sealed && h.policy != .free)),
   (0x28, (hs.any fun h => decide (h.rope ≠ 0) && !h.sealed)
      || decide (1 < (hs.filter fun h => h.policy == .tally).length)),
   (0x29, decide (1024 < ((hs.filter fun h => h.persistent).map Hold.pages).sum))]

/-- The reason with which the holds section fails, in table order; 0 where none applies (R56). -/
def holdsReason (ws : List Word) : Nat :=
  let n := holdCount ws
  let hs := holdList ws
  let nos := (List.range n).map (holdNo ws)
  let rope := fun i => field (wAt ws (4 + 4 * i)) 4 3
  firstReason (
    [(0x21, decide (16 < n) || decide (ws.length ≠ 1 + 4 * n)),
     (0x22, fieldOver ws 0 5 || (List.range n).any fun i => fieldOver ws (1 + 4 * i) 4 || fieldOver ws (2 + 4 * i) 11
        || fieldOver ws (3 + 4 * i) 11 || fieldOver ws (4 + 4 * i) 9 || decide (4 < rope i)),
     (0x23, anyPair (fun a b => a == b) nos)] ++ holdsReasons hs)

/-- The sixteen holds as the section declares them (R57). -/
def holdsOf (ws : List Word) : List Hold :=
  (List.range 16).map fun n =>
    match (List.range (holdCount ws)).find? fun i => holdNo ws i == n with
    | some i => holdEntry ws i
    | none => {}

/-! ### Packer, ring and events sections -/

/-- The mode and param of a descriptor are in range (R320). -/
def descOk (desc : Nat) : Bool :=
  let p := field desc 2 3
  match desc % 4 with
  | 2 => decide (p ≤ 4)
  | 3 => decide (p ≤ 3)
  | _ => decide (p = 0)

/-- The intake words lie in one volatile free hold that is not sealed, or in the open array (R351). -/
def intakePlaceOk (hs : List Hold) (base n : Nat) : Bool :=
  let inside := fun (h : Hold) a => decide (h.base ≤ pageOf a) && decide (pageOf a < h.base + h.pages)
  let as := (List.range n).map fun i => base + i
  (hs.any fun h => !h.persistent && h.policy == .free && !h.sealed && as.all fun a => inside h a)
    || as.all fun a => inHoldArea a && !(hs.any fun h => inside h a)

/-- Reason 0x0051 (R351). -/
def packerBad (ws : List Word) (hs : List Hold) : Bool :=
  let n := field (wAt ws 0) 4 5
  decide (wAt ws 0 % 16 ≠ 1) || decide (n = 0) || decide (16 < n) || decide (ws.length ≠ 7 + n) || fieldOver ws 0 9
    || fieldOver ws 1 4 || fieldOver ws 3 7 || fieldOver ws 6 2
    || ((List.range n).any fun c => fieldOver ws (7 + c) 6 || !descOk (wAt ws (7 + c)))
    || decide (wAt ws 4 = 0) || decide (15872 < wAt ws 4) || decide (wAt ws 5 = 0)
    || !intakePlaceOk hs (wAt ws 2 + 16384 * (wAt ws 3 % 128)) n

/-- The worst-case record of a packer with `n` channels (R98). -/
def worstRecord (n pre post : Nat) : Nat := 80 + 33 * n * (ceilDiv pre 32 + ceilDiv post 32 + 1)

/-- A hold does not serve as the sealed hold of a packer (R98, reason 0x0096). -/
def recordSpaceBad (h : Hold) (n pre post : Nat) : Bool :=
  !h.sealed || decide (1024 * h.pages < 6 * worstRecord n pre post)

/-- G of the ring section (R419). -/
def sectionG (ws : List Word) : Nat := wAt ws 2 + 16384 * (wAt ws 3 % 128)

/-- The guest hold breaks R420: its number, whether guests are served, the packer's sealed hold, and G. -/
def guestBad (hs : List Hold) (no : Nat) (en : Bool) (sealedNo g : Nat) : Bool :=
  let h := hs.getD no {}
  en && (decide (h.pages = 0) || !h.sealed || decide (h.rope ≠ 0) || decide (no = sealedNo) || decide (g < 100)
    || decide (1024 * h.pages < g))

/-- A tally's attributes break R368: declared with no tally-backing hold, or ports on a tally that is not declared. -/
def tallyBad (hs : List Hold) (declared portA portB : Bool) : Bool :=
  (declared && !(hs.any fun h => h.policy == .tally)) || (!declared && (portA || portB))

/-- Keep-alive times out of the ranges of R444. -/
def keepBad (keep sleep wake : Nat) : Bool :=
  decide (keep < 10) || decide (1000 < keep) || decide (sleep < 3 * keep) || decide (wake < 1) || decide (1000 < wake)

/-- Reason 0x0061 (R368, R420, R444). -/
def ringBad (ws tt pk : List Word) (hs : List Hold) : Bool :=
  decide (ws.length ≠ 24) || decide (wAt ws 0 % 16 ≠ 1) || fieldOver ws 0 5 || fieldOver ws 1 5 || fieldOver ws 3 7
    || (bit (wAt ws 0) 4 && decide (wAt tt 3 % 4 = 2))
    || guestBad hs (wAt ws 1 % 16) (bit (wAt ws 1) 4) (wAt pk 1 % 16) (sectionG ws)
    || ((List.range 16).any fun t => let w := wAt ws (8 + t)
        fieldOver ws (8 + t) 3 || tallyBad hs (bit w 0) (bit w 1) (bit w 2))
    || keepBad (wAt ws 4) (wAt ws 5) (wAt ws 7) || fieldOver ws 4 10 || fieldOver ws 6 2 || fieldOver ws 7 10
    || (decide (wAt tt 11 ≠ 0) && ((timetableOf tt 0).ofTask .keepAlive).isEmpty)

/-- Sources that may target port A and the pilot alone, and those that may target port B and the pilot alone (R297). -/
def sourceSide (n : Nat) : Nat := if 2 ≤ n ∧ n ≤ 15 then (if n % 2 = 0 then 5 else 6) else 7

/-- A target mask that breaks R297. -/
def targetBad (n m : Nat) : Bool :=
  if 55 ≤ n then decide (m ≠ 0) else if n = 1 then decide (m ≠ 3) else decide (m &&& sourceSide n ≠ m)

/-- Reason 0x0071 (R316). -/
def eventsBad (ws : List Word) : Bool :=
  decide (ws.length ≠ 82) || decide (wAt ws 0 ≠ 1) || fieldOver ws 5 8
    || ((List.range 64).any fun n => fieldOver ws (6 + n) 3 || targetBad n (wAt ws (6 + n)))
    || ((List.range 6).any fun k => fieldOver ws (70 + 2 * k) 3 || decide (wAt ws (70 + 2 * k) % 4 = 3))
    || ((List.range 9).any fun i => !bit (wAt ws (1 + (55 + i) / 14)) ((55 + i) % 14))
    || decide (wAt ws 74 % 4 ≠ 2) || decide (wAt ws 78 % 4 ≠ 2)

/-! ### The arithmetic checks (R95 to R98) -/

/-- A declared clock or rate that breaks reason 0x0091: word 7 or 9 and the rate after it. -/
def clockBad (ws : List Word) (i : Nat) : Bool :=
  let clk := wAt ws i % 256
  let rate := wAt ws (i + 1)
  if bit (wAt ws i) 8 then decide (50 < clk) || decide (clk < 16 * rate)
  else decide (200 < clk) || decide (clk < rate)

/-- Positions of a code of a rota in the slots below `n`. -/
def codeBelow (code : Nat) (rota : List Nat) (n : Nat) : Nat :=
  let is : Nat → Bool := fun c => c == code
  n / 32 * (rota.filter is).length + ((rota.take (n % 32)).filter is).length

/-- The slots of a bank that the rota leaves to a code in a tick of a length; S_b for the scrubber's (R97). The entries of one bank
do not overlap. -/
def codeSlots (code : Nat) (t : Timetable) (len bank : Nat) : Nat :=
  let r := t.rota.getD bank []
  let lost := (t.windows.filter fun w => w.hasBank bank).map fun w =>
    codeBelow code r (w.stop len + 1) - codeBelow code r (w.start len)
  codeBelow code r len - lost.sum

/-- The scrub capacity (R97). -/
def scrubCapacity (t : Timetable) (len : Nat) : Nat :=
  ((List.range 4).map fun b => codeSlots 6 t len b / 2).foldl min 1000000

/-- Insert a range by its first slot. -/
def insertRange (x : Nat × Nat) : List (Nat × Nat) → List (Nat × Nat)
  | [] => [x]
  | y :: ys => if y.1 < x.1 then y :: insertRange x ys else x :: y :: ys

/-- The slots that ordered ranges cover from a slot on, each counted once. -/
def coveredFrom : Nat → List (Nat × Nat) → Nat
  | _, [] => 0
  | at', (a, b) :: r => let lo := max a at'; (b + 1 - lo) + coveredFrom (max at' (b + 1)) r

/-- W: the slots of a tick that a trickle entry of the timetable covers (R96). -/
def trickleSlots (t : Timetable) (len : Nat) : Nat :=
  coveredFrom 0 (((t.ofTask .trickle).map fun w => (w.start len, w.stop len)).foldl (fun l x => insertRange x l) [])

/-- Reason 0x0092: the scrub limit is above 4,096 or above the scrub capacity of the RUN timetable. -/
def scrubBad (run : Timetable) (lmin limit : Nat) : Bool :=
  decide (4096 < limit) || decide (scrubCapacity run lmin < limit)

/-- Reason 0x0093 (R96). -/
def budgetBad (run : Timetable) (lmin budget rate : Nat) (hs : List Hold) : Bool :=
  decide (512 < budget) ||
    (if hs.any fun h => h.persistent then
      decide (1024 * (trickleSlots run lmin / 16000) < rate) || decide (budget < rate + 4)
    else decide (budget ≠ 0) || decide (rate ≠ 0))

/-- Reason 0x0094: the hold-up time does not cover the store budget. -/
def holdupBad (budget us : Nat) : Bool := decide (us < 16 * budget + 130)

/-- A hold's rope team does not fit the ring (reason 0x0095). -/
def ropesBad (nodes : Nat) (hs : List Hold) : Bool := hs.any fun h => decide (h.rope ≠ 0) && decide (nodes ≤ h.rope)

/-- The marker does not go round the ring within the shortest tick (reason 0x0095). -/
def hopBad (nodes hop lmin : Nat) : Bool := decide (nodes ≠ 0) && (decide (hop < 48) || decide (lmin < nodes * hop))

/-- The ring marker as source with no ring (reason 0x0095). -/
def markerBad (nodes source : Nat) : Bool := decide (nodes = 0) && decide (source = 2)

/-- Reason 0x0095. -/
def ringLengthBad (ws : List Word) (hs : List Hold) : Bool :=
  let n := wAt ws 11
  decide (1024 < n) || markerBad n (wAt ws 3 % 4) || ropesBad n hs || hopBad n (wAt ws 12) (lMin ws)

/-- Reason 0x0096. -/
def recordBad (pk : List Word) (hs : List Hold) : Bool :=
  recordSpaceBad (hs.getD (wAt pk 1 % 16) {}) (field (wAt pk 0) 4 5) (wAt pk 4) (wAt pk 5)

/-- The reasons of the timetable section, 0x0031 to 0x003A. -/
def ttReason (ws : List Word) : Nat :=
  let run := timetableOf ws 0
  let hold := timetableOf ws 1
  let store := timetableOf ws 2
  let a := lMin ws
  let b := lMax ws
  firstReason
    [(0x31, ttMalformed ws), (0x32, ttReserved ws), (0x33, ttRanges ws),
     (0x34, rangesBad a run hold store), (0x35, overlapsBad a b run hold store),
     (0x36, intakeBad (wAt ws 6) run || intakeBad (wAt ws 6) hold),
     (0x37, ordersBad a b run hold store),
     (0x38, portsBad run || portsBad hold || portsBad store),
     (0x39, holdDiffers run hold), (0x3A, storeBad store)]

/-! ### The whole copy (R99, R110 to R113) -/

/-- A 32-byte big-endian value at an offset. -/
def beAt (bs : List Byte) (off : Nat) : Nat := beBytes ((bs.drop off).take 32)

/-- A signature over a hash verifies under a 64-byte key, both in a trailer (R111). -/
def trailerSig (tr : List Byte) (key sig : Nat) (hash : List Byte) : Bool :=
  ecdsaVerify (beAt tr key) (beAt tr (key + 32)) hash (beAt tr sig) (beAt tr (sig + 32))

/-- The last 260 bytes of a copy (R111). -/
def trailerOf (c : List Byte) : List Byte := (c.drop (hdrLen c - 260)).take 260

/-- Reason 0x0005 (R112). -/
def vendorBad (c : List Byte) : Bool :=
  let tr := trailerOf c
  decide (sha256 (tr.take 64) ≠ Config.vendorHash) || !trailerSig tr 0 64 (sha256 (secBytes c 6))

/-- Reason 0x0006 (R113). -/
def ownerBad (c : List Byte) : Bool :=
  let tr := trailerOf c
  match Config.ownerHash with
  | none => true
  | some h => decide (sha256 ((tr.drop 128).take 64) ≠ h) || !trailerSig tr 128 192 (sha256 (c.take (hdrLen c - 68)))

/-- The words of section `ty` of a copy. -/
def secWords (c : List Byte) (ty : Nat) : List Word := unitWords (secBytes c ty)

/-- The reason with which a copy fails, 0 where it passes every check (R99); `noMagic` leaves out reason 0x0007, as a
COMMIT does (R119). -/
def copyReason (c : List Byte) (noMagic : Bool) : Nat :=
  let h := headerReason c
  if h ≠ 0 then h
  else
    let tt := secWords c 1
    let ho := secWords c 2
    let pk := secWords c 3
    let rg := secWords c 4
    let hs := holdsOf ho
    let head := firstReason
      [(4, (secTable c).any fun e => decide (crc32 ((c.drop e.2.1).take e.2.2.1) ≠ e.2.2.2)),
       (5, vendorBad c), (6, ownerBad c),
       (7, !noMagic && decide ((trailerOf c).drop 256 ≠ [0x45#8, 0x4E#8, 0x44#8, 0x31#8])),
       (8, decide (hdrSeq c = 0xFFFFFFFF)), (0x21, unitsBad (secBytes c 2))]
    if head ≠ 0 then head
    else if holdsReason ho ≠ 0 then holdsReason ho
    else if unitsBad (secBytes c 1) then 0x31
    else if ttReason tt ≠ 0 then ttReason tt
    else firstReason
      [(0x51, unitsBad (secBytes c 3) || packerBad pk hs), (0x61, unitsBad (secBytes c 4) || ringBad rg tt pk hs),
       (0x71, unitsBad (secBytes c 5) || eventsBad (secWords c 5)), (0x81, decide ((secBytes c 6).length % 4 ≠ 0)),
       (0x91, clockBad tt 7 || clockBad tt 9),
       (0x92, scrubBad (timetableOf tt 0) (lMin tt) (wAt tt 15)),
       (0x93, budgetBad (timetableOf tt 0) (lMin tt) (wAt tt 13) (wAt tt 16) hs),
       (0x94, holdupBad (wAt tt 13) (wAt tt 14)), (0x95, ringLengthBad tt hs),
       (0x96, recordBad pk hs)]

end Sys2Proof.Machine
end

