-- ==== Sys2Proof/Machine/Mailbox.lean ====
section
/-!
DEFINITION. Local semaphores and the six mailbox channels (chapter 10).
-/
namespace Sys2Proof.Machine
open Sys2Proof

/-- The pilot is woken from its idle state. -/
def Dev.wakePilot (d : Dev) : Dev := { d with pl := { d.pl with woken := true } }

/-! ### Local semaphores (R245 to R247, R252) -/

/-- A local semaphore. -/
def Dev.semL (d : Dev) (n : Nat) : SemLocal := d.cm.semL.getD n {}

/-- Replace a local semaphore. -/
def Dev.setSemL (d : Dev) (n : Nat) (x : SemLocal) : Dev :=
  { d with cm := { d.cm with semL := d.cm.semL.set n x } }

/-- The want bit of a party. -/
def SemLocal.wantBy (x : SemLocal) : Party → Bool
  | .portA => x.wantA
  | .portB => x.wantB
  | .pilot => x.wantP

/-- Set or clear the want bit of a party. -/
def SemLocal.setWant (x : SemLocal) (y : Party) (b : Bool) : SemLocal :=
  match y with
  | .portA => { x with wantA := b }
  | .portB => { x with wantB := b }
  | .pilot => { x with wantP := b }

/-- A claim (R245, R247). -/
def Dev.semClaim (d : Dev) (y : Party) (n : Nat) : Dev :=
  let x := d.semL n
  match x.owner with
  | none => d.setSemL n ({ x with owner := some y }.setWant y false)
  | some o => if o = y then d else d.setSemL n (x.setWant y true)

/-- A semaphore becomes free: each want bit fires its party's event and clears (R247). -/
def Dev.semFree (d : Dev) (n : Nat) (broken : Bool) : Dev :=
  let x := d.semL n
  let d := d.setSemL n { broken := broken }
  let d := if x.wantA then d.fire 12 else d
  let d := if x.wantB then d.fire 13 else d
  if x.wantP then d.wakePilot else d

/-- A release (R246). -/
def Dev.semRelease (d : Dev) (y : Party) (n : Nat) : Dev :=
  if (d.semL n).owner = some y then d.semFree n false
  else { d with cm := { d.cm with badRel := satInc 14 d.cm.badRel } }

/-- The local semaphores of a reset party are released broken and counted (R252). -/
def Dev.semResetGo (d : Dev) (y : Party) : List Nat → Dev
  | [] => d
  | n :: ns =>
    let d := if (d.semL n).owner = some y then
        { (d.semFree n true) with cm := { (d.semFree n true).cm with rstRel := satInc 14 d.cm.rstRel } }
      else d
    d.semResetGo y ns

/-- Release every local semaphore a party holds (R252). -/
def Dev.semReset (d : Dev) (y : Party) : Dev := d.semResetGo y (List.range 64)

/-! ### Channels (R255 to R270) -/

/-- The sender of a channel. -/
def chanSender (k : Nat) : Party :=
  if k = 0 ∨ k = 2 then .portA else if k = 1 ∨ k = 4 then .portB else .pilot

/-- The receiver of a channel. -/
def chanReceiver (k : Nat) : Party :=
  if k = 0 ∨ k = 5 then .portB else if k = 1 ∨ k = 3 then .portA else .pilot

/-- A channel. -/
def Dev.chan (d : Dev) (k : Nat) : Chan := d.cm.chans.getD k {}

/-- Change a channel. -/
def Dev.modChan (d : Dev) (k : Nat) (f : Chan → Chan) : Dev :=
  { d with cm := { d.cm with chans := d.cm.chans.modify k f } }

/-- Queued words of a channel. -/
def Chan.words (c : Chan) : Nat := (c.queue.map List.length).sum

/-- A write by a party to whom the field does not belong (R255). -/
def Dev.misuse (d : Dev) (k : Nat) : Dev := d.modChan k fun c => { c with misuse := satInc 14 c.misuse }

/-- Fire the one of two port events that belongs to a party, or wake the pilot. -/
def Dev.tellParty (d : Dev) (y : Party) (eventA : Nat) : Dev :=
  match y with
  | .portA => d.fire eventA
  | .portB => d.fire (eventA + 1)
  | .pilot => d.wakePilot

/-- The receiver is told of a message (R260, R261). -/
def Dev.tellReceiver (d : Dev) (k : Nat) : Dev :=
  if (d.chan k).notify = 0 then d else d.tellParty (chanReceiver k) 4

/-- A POST of a length (R256, R257, R260, R261, R265). -/
def Dev.mbxPost (d : Dev) (k len : Nat) : Dev :=
  let c := d.chan k
  if len = 0 ∨ 16 < len then d.modChan k fun c => { c with refused := satInc 14 c.refused, last := 3 }
  else if 16 < c.words + len then d.modChan k fun c => { c with refused := satInc 14 c.refused, last := 2 }
  else
    let start := !c.confirm && decide (c.acktoEff ≠ 0)
    let d := d.modChan k fun c =>
      { c with queue := c.queue ++ [c.stage.take len], posted := c.posted ++ [d.now], last := 1, free := c.free - len,
               timer := if start then some d.ck.tick else c.timer }
    d.tellReceiver k

/-- A TAKE (R258, R263). -/
def Dev.mbxTake (d : Dev) (k : Nat) : Dev :=
  let c := d.chan k
  match c.queue with
  | [] => d
  | m :: ms =>
    let d := d.modChan k fun c =>
      { c with queue := ms, posted := c.posted.tail, answered := c.answered - 1, free := c.free + m.length }
    if c.confirm ∧ ms = [] then d.tellParty (chanSender k) 6 else d

/-- A return code reaches MBX_ACK (R264, R268, R279): it stops the timer and disarms the channel. -/
def Dev.putAck (d : Dev) (k : Nat) (code : Word) : Dev :=
  d.modChan k fun c => { c with ack := code, ackValid := true, timer := none, armed := false,
                                ackStale := c.ackStale || c.armed, codeAt := d.now }

/-- The receiver's own write of a return code (R264). -/
def Dev.ackWrite (d : Dev) (k : Nat) (code : Word) : Dev :=
  if 0x3FF0 ≤ code.toNat then d.misuse k else d.putAck k code

/-- A party stages a word (R255, R256). -/
def Dev.stageWrite (d : Dev) (y : Party) (k i : Nat) (v : Word) : Dev :=
  if y = chanSender k then d.modChan k fun c => { c with stage := c.stage.set i v } else d.misuse k

/-- A write of MBX_POST. -/
def Dev.postWrite (d : Dev) (y : Party) (k : Nat) (v : Word) : Dev :=
  if y = chanSender k then d.mbxPost k (v.toNat % 32) else d.misuse k

/-- A write of MBX_TAKE. -/
def Dev.takeWrite (d : Dev) (y : Party) (k : Nat) (v : Word) : Dev :=
  if y = chanReceiver k then (if bit v.toNat 0 then d.mbxTake k else d) else d.misuse k

/-- A write of MBX_ACK. -/
def Dev.ackWriteBy (d : Dev) (y : Party) (k : Nat) (v : Word) : Dev :=
  if y = chanReceiver k then d.ackWrite k v else d.misuse k

/-- A write of MBX_CLR. Each bit belongs to one side. A third party's write counts as misuse whatever it writes (R255); one side's
write counts where it writes 1 to a bit of the other (DEDUCED, log entry 23). -/
def Dev.clrWrite (d : Dev) (y : Party) (k : Nat) (v : Word) : Dev :=
  let r := decide (y = chanReceiver k)
  let t := decide (y = chanSender k)
  let bad := (!r && !t) || (!r && (bit v.toNat 0 || bit v.toNat 1)) || (!t && bit v.toNat 2)
  let d := if bad then d.misuse k else d
  d.modChan k fun c =>
    { c with stale := c.stale && !(r && bit v.toNat 0), sndrst := c.sndrst && !(r && bit v.toNat 1),
             ackValid := c.ackValid && !(t && bit v.toNat 2), ackStale := c.ackStale && !(t && bit v.toNat 2) }

/-- A write of MBX_CFG (R260, R261, R270). notify belongs to the receiver, confirm to the sender. A third party's write counts as
misuse whatever it writes (R255); one side's write counts where it gives the other's field a new value (DEDUCED, log entry 23).
notify 11 changes nothing (DEDUCED, log entry 24). -/
def Dev.cfgWrite (d : Dev) (y : Party) (k : Nat) (v : Word) : Dev :=
  let c := d.chan k
  let n := v.toNat % 4
  let cf := bit v.toNat 2
  let fixed := decide (chanReceiver k = .pilot)
  let r := decide (y = chanReceiver k)
  let t := decide (y = chanSender k)
  let bad := (!r && !t) || (!r && decide (n ≠ c.notify)) || (!t && (cf != c.confirm))
  let d := if bad then d.misuse k else d
  let d := if t then d.modChan k fun c => { c with confirm := cf } else d
  if r ∧ ¬ fixed ∧ n ≠ 3 then
    let d := d.modChan k fun c => { c with notify := n }
    if c.notify = 0 ∧ n ≠ 0 ∧ c.queue ≠ [] then d.tellParty (chanReceiver k) 4 else d
  else d

/-- A write of the shadow of MBX_ACKTO (R79, R270). -/
def Dev.acktoWrite (d : Dev) (y : Party) (k : Nat) (v : Word) : Dev :=
  if y = chanSender k then d.modChan k fun c => { c with ackto := v.toNat } else d.misuse k

/-- A channel's ACK timer ends in a tick: it is tick t + N, and no ACK has been written (R265). -/
def Chan.expires (c : Chan) (tick : Nat) : Bool :=
  match c.timer with
  | some t => decide (c.acktoEff ≠ 0) && decide (tick = t + c.acktoEff)
  | none => false

/-- The lowest channel whose timer ends in this tick: the engine's slot serves it (R265). -/
def Dev.nextExpiry (d : Dev) : Option Nat := (List.range 6).find? fun k => (d.chan k).expires d.ck.tick

/-- This slot of bank 3 is the event and mailbox engine's, and it has not used it (R265, R301). -/
def Dev.engineSlot (d : Dev) : Bool := d.mayUse 8 3

/-- An ACK timer expires, in an engine slot of bank 3, the lowest channel first (R265). -/
def Dev.ackTimeout (d : Dev) (k : Nat) : Dev :=
  if d.engineSlot && (d.nextExpiry == some k) then
    ((d.useBank 3).modChan k fun c =>
      { c with ack := 0x3FF0#14, ackValid := true, timer := none, timeouts := satInc 14 c.timeouts }).tellParty (chanSender k) 8
  else d

/-- The effects of a reset of the receiving port on a channel (R267). -/
def Dev.receiverReset (d : Dev) (k : Nat) : Dev := d.modChan k fun c => { c with stale := true, notify := 0 }

/-- The effects of a reset of the sending port on a channel (R268). -/
def Dev.senderReset (d : Dev) (k : Nat) : Dev :=
  (d.modChan k fun c => { c with stage := List.replicate 16 0#14, confirm := false, ackto := 0, acktoEff := 0,
                                 timer := none, sndrst := true, armed := true }).tellParty (chanReceiver k) 10

/-- The effects of a port reset on the channels (R269). -/
def Dev.mbxReset (d : Dev) : Port → Dev
  | .a => (((d.senderReset 0).receiverReset 1).senderReset 2).receiverReset 3
  | .b => (((d.receiverReset 0).senderReset 1).senderReset 4).receiverReset 5

/-- A channel word as a party reads it (R255, R258, R270). -/
def Dev.mbxRead (d : Dev) (y : Party) (k off : Nat) : Word :=
  let c := d.chan k
  let head := c.queue.headD []
  if off < 0x10 then (if y = chanSender k then c.stage.getD off 0#14 else 0#14)
  else if off < 0x20 then head.getD (off - 0x10) 0#14
  else if off = 0x22 then c.ack
  else if off = 0x24 then wd (c.notify + 4 * b2n c.confirm)
  else if off = 0x25 then wd c.ackto
  else if off = 0x26 then wd (c.words + 32 * c.queue.length + 1024 * b2n c.stale + 2048 * b2n c.sndrst
    + 4096 * b2n c.ackValid + 8192 * b2n c.ackStale)
  else if off = 0x27 then wd head.length
  else if off = 0x28 then wd c.last
  else if off = 0x29 then wd c.refused
  else if off = 0x2A then wd c.misuse
  else if off = 0x2B then wd c.timeouts
  else 0#14

/-- A write of a channel word by a party (R255, R270). A SAT counter is cleared by 0x0000 (R11). -/
def Dev.mbxWrite (d : Dev) (y : Party) (k off : Nat) (v : Word) : Dev :=
  if off < 0x10 then d.stageWrite y k off v
  else if off = 0x20 then d.postWrite y k v
  else if off = 0x21 then d.takeWrite y k v
  else if off = 0x22 then d.ackWriteBy y k v
  else if off = 0x23 then d.clrWrite y k v
  else if off = 0x24 then d.cfgWrite y k v
  else if off = 0x25 then d.acktoWrite y k v
  else if off = 0x29 ∧ v = 0#14 then d.modChan k fun c => { c with refused := 0 }
  else if off = 0x2A ∧ v = 0#14 then d.modChan k fun c => { c with misuse := 0 }
  else if off = 0x2B ∧ v = 0#14 then d.modChan k fun c => { c with timeouts := 0 }
  else d

/-- The summary bits of a party's inbound channels (R259, R271). -/
def Dev.summary (d : Dev) : Port → Word
  | .a => wd (2 * b2n (!(d.chan 1).queue.isEmpty) + 8 * b2n (!(d.chan 3).queue.isEmpty))
  | .b => wd (b2n (!(d.chan 0).queue.isEmpty) + 32 * b2n (!(d.chan 5).queue.isEmpty))

/-- Each ACKTO shadow becomes the value in effect (R79, R270). -/
def Dev.acktoShadows (d : Dev) : Dev :=
  { d with cm := { d.cm with chans := d.cm.chans.map fun c => { c with acktoEff := c.ackto } } }

end Sys2Proof.Machine
end

