-- ==== Sys2Proof/Machine/Reply.lean ====
section
/-!
DEFINITION. How a command to the pilot ends: its reply on the return channel and its return code (R273, R276, R279).
-/
namespace Sys2Proof.Machine
open Sys2Proof

/-- The command of a port's channel that lacks its return code. -/
def Dev.cmd (d : Dev) : Port → Option Cmd
  | .a => d.pl.cmdA
  | .b => d.pl.cmdB

/-- Replace a port's command. -/
def Dev.setCmd (d : Dev) (p : Port) (c : Option Cmd) : Dev :=
  match p with
  | .a => { d with pl := { d.pl with cmdA := c } }
  | .b => { d with pl := { d.pl with cmdB := c } }

/-- A port's channel to the pilot (R273). -/
def pilotChan : Port → Nat
  | .a => 2
  | .b => 4

/-- A port's return channel (R273). -/
def returnChan : Port → Nat
  | .a => 3
  | .b => 5

/-- A command of the port's channel lacks its return code (R292): one that the gate admitted, or one that still waits. -/
def Dev.lacksCode (d : Dev) (p : Port) : Bool :=
  let c := d.chan (pilotChan p)
  (d.cmd p).isSome || decide (c.answered < c.queue.length)

/-- The pilot posts a message on a port's return channel: it stages the words and posts them (R256). -/
def Dev.pilotPost (d : Dev) (p : Port) (ws : List Word) : Dev :=
  let k := returnChan p
  (d.modChan k fun c => { c with stage := ws ++ c.stage.drop ws.length }).mbxPost k ws.length

/-- The return code is written, the reserved reply words are released, and the command is over (R276, R279). -/
def Dev.finish (d : Dev) (p : Port) (code : Nat) : Dev :=
  let r := (d.cmd p).map Cmd.reserved |>.getD 0
  let d := d.modChan (returnChan p) fun c => { c with reserved := c.reserved - r }
  (d.putAck (pilotChan p) (wd code)).setCmd p none

/-- A reply message, then the return code (R273). -/
def Dev.finishWith (d : Dev) (p : Port) (reply : List Word) (code : Nat) : Dev := (d.pilotPost p reply).finish p code

/-- Word `i` of a command's message. -/
def Cmd.word (c : Cmd) (i : Nat) : Nat := (c.words.getD i 0#14).toNat

/-- A value of consecutive words of a command's message (R7). -/
def Cmd.value (c : Cmd) (i n : Nat) : Nat := ofWords ((c.words.drop i).take n)

/-- The opcode of a command. -/
def Cmd.op (c : Cmd) : Nat := c.word 0

/-- End the port's command where it still has the opcode and lacks its return code. -/
def Dev.finishIf (d : Dev) (p : Port) (op code : Nat) : Dev :=
  match d.cmd p with
  | some c => if c.op = op then d.finish p code else d
  | none => d

/-- The port has a command with an opcode that has been accepted. -/
def Dev.accepted (d : Dev) (p : Port) (op : Nat) : Option Cmd :=
  (d.cmd p).filter fun c => c.op == op && c.phase == .accepted

/-- The port has a command with an opcode whose action has started. -/
def Dev.started (d : Dev) (p : Port) (op : Nat) : Option Cmd :=
  (d.cmd p).filter fun c => c.op == op && c.phase == .started

/-- The action of a port's command has started and ends later. -/
def Dev.setStarted (d : Dev) (p : Port) : Dev := d.setCmd p ((d.cmd p).map fun c => { c with phase := .started })

/-- Run a command's action where the port's command has its opcode, has been accepted, and the pilot runs. -/
def Dev.onCommand (d : Dev) (p : Port) (op : Nat) (f : Cmd → Dev → Dev) : Dev :=
  match d.accepted p op with
  | some c => if d.pilotRuns then f c d else d
  | none => d

end Sys2Proof.Machine
end

