-- ==== Sys2Proof/Machine/Keel.lean ====
section
/-!
DEFINITION. The keel store (chapter 09): page stores, map commits, trickle and checkpoint stores, the power-fail store
and recall.
-/
namespace Sys2Proof.Machine
open Sys2Proof

/-- Physical pages of the keel store. -/
def physPages : Nat := 1152

/-- Slots a page is programmed for (R227). -/
def programSlots : Nat := 16000

/-- Slots a map commit takes (R229). -/
def commitSlots : Nat := 128000

/-- A physical page's record. -/
def Dev.phys (d : Dev) (p : Nat) : Phys := (assoc d.kl.phys p).getD {}

/-- A logical page's record. -/
def Dev.logicalPage (d : Dev) (l : Nat) : Logical := (assoc d.kl.logical l).getD {}

/-- The store sequence of STORE or of the RETAIN entry runs. -/
def Dev.storing (d : Dev) : Bool := (d.pw.mode == .store) || d.pw.retainEntry

/-- The keel store writes nothing at all (R236). -/
def Dev.keelSilent (d : Dev) : Bool := !d.keelKeeps || d.lb.spent

/-- A physical page is free (R228). -/
def Dev.physFree (d : Dev) (p : Nat) : Bool :=
  !(d.kl.logical.any fun x => x.2.phys == some p) && !d.kl.released.contains p
    && !(d.kl.uncovered.any fun u => u.phys == p)
    && !((d.kl.prog.map Program.phys) == some p) && !(d.phys p).bad

/-- The free physical pages, ascending. -/
def Dev.freePages (d : Dev) : List Nat := (List.range physPages).filter d.physFree

/-- The first page of a list whose store count is the least (R228). -/
def Dev.leastWorn (d : Dev) : List Nat → Option Nat
  | [] => none
  | p :: ps =>
    match d.leastWorn ps with
    | some q => if (d.phys q).count < (d.phys p).count then some q else some p
    | none => some p

/-- The first page of a list whose store count is the greatest (R235). -/
def Dev.mostWorn (d : Dev) : List Nat → Option Nat
  | [] => none
  | p :: ps =>
    match d.mostWorn ps with
    | some q => if (d.phys p).count < (d.phys q).count then some q else some p
    | none => some p

/-- The valid map copy with the higher sequence, and its slot (R239). -/
def Dev.validMap (d : Dev) : Option (Nat × MapCopy) :=
  match d.kl.map0, d.kl.map1 with
  | some a, some b => if a.seq < b.seq then some (1, b) else some (0, a)
  | some a, none => some (0, a)
  | none, some b => some (1, b)
  | none, none => none

/-- The tables with a list of page stores become current (R229). -/
def coverAll (t : List (Nat × Logical)) : List StoreRec → List (Nat × Logical)
  | [] => t
  | u :: us =>
    coverAll (assocSet t u.logical { page := ((assoc t u.logical).getD {}).page, phys := some u.phys }) us

/-- The retirement map a commit carries: the map in service, with a retirement whose copy is complete (R214, R215). -/
def Dev.retMapNow (d : Dev) : List (Nat × Retired) :=
  let t := (List.range 32).zip d.ar.retMap
  let inUse := t.filter fun x => x.2.inUse
  match d.ar.retire with
  | some j =>
    if j.copied ∧ ¬ j.bankJob then
      let old := inUse.filter fun x => !(decide (x.1 / 8 = j.page / 512) && decide (x.2.page = j.page % 512))
      assocSet old j.spare { page := j.page % 512, inUse := true }
    else inUse
  | none => inUse

/-- The retired banks a commit carries (R216). -/
def Dev.bankRetNow (d : Dev) : List Nat :=
  let b := d.ar.bankRetPending.foldl (fun l x => setInsert x l) d.ar.bankRet
  match d.ar.retire with
  | some j => if j.bankJob then setInsert j.page b else b
  | none => b

/-- A map commit begins (R229), `first` the first of its slots: the target slot is invalid until it ends; while a replay has spent the
device nothing is written (R478), and a keel store that keeps nothing makes none (R117, R239). -/
def Dev.startCommit (d : Dev) (final : Bool) (first : Nat) : Dev :=
  if !d.keelKeeps then d else
  let seq := (d.validMap.map fun x => x.2.seq).getD 0
  let copy : MapCopy :=
    { seq := seq + 1, logical := coverAll d.kl.logical d.kl.uncovered,
      wear := d.kl.phys.map fun x => (x.1, (x.2.count, x.2.bad)), retired := d.retMapNow, bankRet := d.bankRetNow }
  let slot := (d.validMap.map Prod.fst).getD 1
  let k := d.kl
  let k := { k with commit := some { covers := k.uncovered, startAt := first, startTick := d.ck.tick, copy, final },
                    lastCmt := d.ck.tick % 2 ^ 28 }
  let k := if d.lb.spent then k else if slot = 0 then { k with map1 := none } else { k with map0 := none }
  { d with kl := k }

/-- The pool rule (R232): in the modes that trickle, at most 24 free pages; in a store sequence, at most 8 and more pages
waiting than free. -/
def Dev.poolCalls (d : Dev) : Bool :=
  d.kl.commit.isNone && !d.kl.uncovered.isEmpty &&
    (if d.storing then decide (d.freePages.length ≤ 8) && decide (d.freePages.length < d.kl.pages.length)
     else decide (d.freePages.length ≤ 24))

/-- In the modes that trickle, a map commit begins in the first slot whose free pages the pool rule finds too few (R232). -/
def Dev.poolCheck (d : Dev) : Dev := if !d.storing && d.poolCalls then d.startCommit false d.now else d

/-- The check of the next slot falls due. -/
def Dev.poolDue (d : Dev) : Dev := { d with kl := { d.kl with poolAt := none } }.poolCheck

/-- The pool rule is checked in the next slot, after one in which the number of free pages may have changed too late for its check
(R231, R232). -/
def Dev.checkNext (d : Dev) : Dev :=
  { d with kl := { d.kl with poolAt := if !d.storing && d.poolCalls then some (d.now + 1) else none } }

/-! ### The slots in which programming advances (R233) -/

/-- The ranges of the running tick that entries of some tasks in the active timetable cover, by first slot. -/
def Dev.taskRanges (d : Dev) (ts : List Task) : List (Nat × Nat) :=
  let t := d.ttOf d.ck.active
  ((ts.flatMap t.ofTask).map fun w => (w.start d.ck.curLen, w.stop d.ck.curLen)).foldl (fun l x => insertRange x l) []

/-- The slots from `lo` to `hi - 1` of the running tick that some such entry covers, each counted once. -/
def Dev.coveredSlots (d : Dev) (ts : List Task) (lo hi : Nat) : Nat :=
  coveredFrom lo ((d.taskRanges ts).filterMap fun r => if r.1 < hi ∧ lo ≤ r.2 then some (r.1, min r.2 (hi - 1)) else none)

/-- The tasks in whose entries programming advances (R233). -/
def storeTasks : List Task := [.trickle, .checkpoint]

/-- The slots in which a program has advanced before an absolute slot: all of them in a store sequence, else those that an entry
covers (R233, R236). -/
def Dev.programmed (d : Dev) (g : Program) (t : Nat) : Nat :=
  g.done + (if d.storing then t - g.since else if g.since < t then d.coveredSlots storeTasks (d.slotAt g.since) (d.slotAt t) else 0)

/-- The slots before this one are counted, under the tick and the timetable that end here. -/
def Dev.countProgram (d : Dev) : Dev :=
  match d.kl.prog with
  | some g =>
    if g.since < d.now then
      { d with kl := { d.kl with prog := some { g with done := d.programmed g d.now, since := d.now } } }
    else d
  | none => d

/-- The last slot of the page being programmed (R227): it has been read whole, and 16,000 slots have counted. -/
def Dev.programDue (d : Dev) : Bool :=
  match d.kl.prog with
  | some g => (g.buf.read == 1024) && decide (programSlots ≤ d.programmed g (d.now + 1))
  | none => false

/-- Programming may advance in an absolute slot of the running tick: in a store sequence, or where an entry covers it (R233). -/
def Dev.mayProgram (d : Dev) (t : Nat) : Bool :=
  d.storing || (decide (d.slotAt t < d.ck.curLen) && decide (0 < d.coveredSlots storeTasks (d.slotAt t) (d.slotAt t + 1)))

/-! ### The slots that the seal engine's signatures take (R362, R365) -/

/-- The slots of signature slice entries from the first that has not been counted to an absolute slot; each counts once, whatever its
bank mask (R362). -/
def Dev.sliceSlots (d : Dev) (t : Nat) : Nat :=
  if d.ks.sigSince < t then d.coveredSlots [.signature] (d.slotAt d.ks.sigSince) (d.slotAt t) else 0

/-- The slots before this one are counted, to the active work, or to the verification that waits beside it (R362). -/
def Dev.countSign (d : Dev) : Dev :=
  let n := d.sliceSlots d.now
  let k := { d.ks with sigSince := max d.ks.sigSince d.now }
  { d with ks := if k.active.isSome then { k with sigDone := k.sigDone + n } else { k with auditDone := k.auditDone + n } }

/-- What counts in the slots of entries is counted up to here, under the tick and the timetable that end. -/
def Dev.countWork (d : Dev) : Dev := d.countProgram.countSign

/-- A change of the active timetable: the old one counts up to here. -/
def Dev.retable (d : Dev) (t : TtName) : Dev := d.countWork.switchTo t

/-- The page that programming takes next: the first buffered page, a move last; in a store sequence, where programming runs
continuously, the page that is being read if no other waits (R233, R236; DEDUCED, log entry 45). -/
def Dev.nextToProgram (d : Dev) : Option PageBuf :=
  match d.firstPage ((d.kl.buffers.filter fun b => !b.move).map PageBuf.page) with
  | some p => d.kl.buffers.find? fun (b : PageBuf) => b.page == p && !b.move
  | none =>
    match d.kl.buffers.find? fun b => b.move with
    | some b => some b
    | none => if d.storing then d.kl.reading else none

/-- No map commit can free a page (R232): in a store sequence the pages still waiting are left unstored and the final commit begins; in
the other modes they stay DIRTY, and what was read of them is dropped. -/
def Dev.poolEnds (d : Dev) (first : Nat) : Dev :=
  if d.storing then d.startCommit true first
  else
    let f : PageRec → PageRec := fun x => { x with state := .dirty }
    { d with kl := { d.kl with stuck := true, buffers := [], reading := none, pages := d.kl.pages.map f } }

/-- Programming waits for a free page (R232). -/
def Dev.poolWait (d : Dev) (first : Nat) : Dev :=
  let d := if d.kl.waiting then d
    else { d with kl := { d.kl with waiting := true, poolWaits := satInc 14 d.kl.poolWaits } }
  if d.kl.commit.isSome then d
  else if d.kl.uncovered.isEmpty then d.poolEnds first
  else d.startCommit false first

/-- Program a page into a free page, or wait for one (R227, R228, R235). `first` is the first slot in which it advances. -/
def Dev.programPage (d : Dev) (b : PageBuf) (first : Nat) : Dev :=
  match (if b.move then d.mostWorn d.freePages else d.leastWorn d.freePages) with
  | some p =>
    let rest := d.kl.buffers.filter fun (x : PageBuf) => !(x.page == b.page && x.move == b.move)
    { d with kl := { d.kl with prog := some { buf := b, phys := p, since := first }, buffers := rest,
                               waiting := false } }.checkNext
  | none => d.poolWait first

/-- Begin programming the next page, where none is programmed and programming may advance (R231 step 4, R233). -/
def Dev.beginProgram (d : Dev) (first : Nat) : Dev :=
  if d.kl.prog.isSome || !d.mayProgram first then d
  else match d.nextToProgram with
    | none => d
    | some b => d.programPage b first

/-- The units of a page whose store committed return (R224, R226). -/
def Dev.returnUnit (d : Dev) : Dev :=
  if 0 < d.kl.overdraft then { d with kl := { d.kl with overdraft := d.kl.overdraft - 1 } }
  else { d with kl := { d.kl with free := d.kl.free + 1 } }

/-- The page's state when its store commits (R224). -/
def Dev.pageStored (d : Dev) (page : Nat) : Dev :=
  match d.pageRec page with
  | some r =>
    if r.state = .redirty then
      let f : PageRec → PageRec := fun x => if x.page = page then { x with state := .dirty } else x
      { d with kl := { d.kl with pages := d.kl.pages.map f } }
    else { d with kl := { d.kl with pages := d.kl.pages.filter fun x => x.page != page } }.returnUnit
  | none => d

/-- Bad physical pages. -/
def Dev.badPages (d : Dev) : Nat := (d.kl.phys.filter fun x => x.2.bad).length

/-- A retirement waits for a commit that carries it (R214 step 4, R216). -/
def Dev.retireWaits (d : Dev) : Bool :=
  match d.ar.retire with
  | some j => j.copied || j.bankJob
  | none => false

/-- A map commit that a slot calls for beside the pool rule, where none runs (R214 step 4, R236 step 3): the final one, or one for a
retirement that waits. -/
def Dev.followUp (d : Dev) : Dev :=
  if d.kl.commit.isSome then d
  else if d.kl.seqStart.isSome && d.kl.pages.isEmpty && d.kl.prog.isNone then d.startCommit true (d.now + 1)
  else if d.retireWaits && !d.storing then d.startCommit false (d.now + 1)
  else d

/-- Step 3 of R231. -/
def Dev.poolStep (d : Dev) : Dev := if d.poolCalls then d.startCommit false (d.now + 1) else d

/-- A page whose programming fails to verify is bad; the store is repeated on the next free page (R242). -/
def Dev.programFailed (d : Dev) (b : PageBuf) (p : Nat) : Dev :=
  let d := d.capture 11 d.ck.slot (wd 11 :: twoWords d.ck.slot ++ [wd p])
  let d := { d with kl := { d.kl with phys := assocSet d.kl.phys p { d.phys p with bad := true },
                                      prog := none, buffers := b :: d.kl.buffers } }
  let d := d.fire 23
  let d := if 64 < d.badPages ∧ ¬ d.kl.wornFired then { d with kl := { d.kl with wornFired := true } }.fire 24 else d
  let d := d.followUp
  if d.mayProgram (d.now + 1) then d.programPage b (d.now + 1) else d.checkNext

/-- A number as `n` bytes, least significant first, of each of a list. -/
def leAll (n : Nat) (vs : List Nat) : List Byte := vs.flatMap fun v => toBytes v n

/-- A bitmap of a page's words: 128 bytes, word 0 in bit 0 of the first. -/
def pageBits (offs : List Nat) : List Byte :=
  (List.range 128).map fun i => BitVec.ofNat 8 ((offs.filter fun o => o / 8 == i).map fun o => 2 ^ (o % 8)).sum

/-- The items of a physical page above its CRC-32, in the order of R221. The spec does not say how they are packed into bytes: words and
fields as whole bytes, least significant first, bits eight to a byte (DESIGN CHOICE, log entry 98). -/
def PageCopy.bytes (c : PageCopy) : List Byte :=
  leAll 2 ((List.range 1024).map fun o => ((assoc c.data o).getD 0#14).toNat) ++ pageBits c.written ++ pageBits c.uncorr
    ++ leAll 2 [c.logical, c.page] ++ leAll 4 [c.append.getD 0] ++ leAll 1 [b2n c.append.isSome]

/-- The CRC-32 over the items (R110, R221). -/
def PageCopy.sum (c : PageCopy) : Nat := crc32 c.bytes

/-- The stored CRC-32 passes (R240). -/
def PageCopy.crcOk (c : PageCopy) : Bool := c.crc == c.sum

/-- The contents that a page store writes (R221). -/
def PageBuf.contents (b : PageBuf) (order : Nat) : PageCopy :=
  let c : PageCopy := { data := b.data, written := b.written, uncorr := b.uncorr, logical := b.logical, page := b.page,
                        append := b.append, crc := 0, order := order }
  { c with crc := c.sum }

/-- A page store commits (R227, R230, R473); while spent nothing reaches the physical page. -/
def Dev.commitPage (d : Dev) (b : PageBuf) (p : Nat) : Dev :=
  let old := d.phys p
  let copy := b.contents d.kl.nextOrder
  let new : Phys := { old with count := old.count + 1, copy := if d.lb.spent then old.copy else some copy }
  let u : StoreRec := { logical := b.logical, phys := p, page := b.page }
  let d := { d with kl := { d.kl with phys := assocSet d.kl.phys p new, uncovered := d.kl.uncovered ++ [u],
                                      prog := none, nextOrder := d.kl.nextOrder + 1 } }
  let d := d.emit 5 0 0 b.logical p
  if b.move then d else d.pageStored b.page

/-- The append pointer a page store records: its page holds the word before the pointer (R223). -/
def Dev.appendOf (d : Dev) (page : Nat) : Option Nat :=
  match d.holdOf page with
  | some n =>
    let h := d.hold n
    if h.policy = .append ∧ (h.append - 1) / 1024 + h.base = page then some h.append else none
  | none => none

/-- The page lies in a vault hold: its page stores carry written states (R221). -/
def Dev.vaultPage (d : Dev) (page : Nat) : Bool :=
  match d.holdOf page with
  | some n => (d.hold n).policy == .vault
  | none => false

/-- Read one word of the page in the keel store's slot of its bank (R227). -/
def Dev.readPageWord (d : Dev) : Dev :=
  match d.kl.reading with
  | none => d
  | some b =>
    let a := 1024 * b.page + b.read
    let (d, r) := d.readArr 7 a
    let b := { b with data := if r.data = 0#14 then b.data else b.data ++ [(b.read, r.data)],
                      uncorr := if r.out = .uncorrectable then b.uncorr ++ [b.read] else b.uncorr,
                      written := if d.vaultPage b.page && d.ar.written.contains a then b.written ++ [b.read] else b.written,
                      read := b.read + 1 }
    if b.read = 1024 then
      let b := { b with append := d.appendOf b.page }
      if d.progReads then
        let d : Dev := { d with kl := { d.kl with reading := none, prog := d.kl.prog.map fun (x : Program) => { x with buf := b } } }
        d.beginRead
      else
        let d : Dev := { d with kl := { d.kl with reading := none, buffers := d.kl.buffers ++ [b] } }
        (d.beginProgram (d.now + 1)).beginRead
    else { d with kl := { d.kl with reading := some b } }

/-- The tally-backing hold, if one is declared (R55). -/
def Dev.tallyHold (d : Dev) : Option Hold := d.ar.holds.find? fun h => h.policy == .tally && decide (0 < h.pages)

/-- The page that is being read holds the tally blocks (R369). -/
def Dev.readsTallies (d : Dev) : Bool :=
  match d.kl.reading, d.tallyHold with
  | some b, some h => b.page == h.base
  | _, _ => false

/-- The first words of a page as they were read. -/
def PageBuf.firstWords (b : PageBuf) (n : Nat) : PageBuf :=
  { b with data := b.data.filter fun x => decide (x.1 < n), uncorr := b.uncorr.filter fun x => decide (x < n),
           written := b.written.filter fun x => decide (x < n), read := n }

/-- A tally update begins: a tally block whose read it would cut is read again from its first word (R372). -/
def Dev.rereadBlock (d : Dev) : Dev :=
  if d.readsTallies then
    { d with kl := { d.kl with reading := d.kl.reading.map fun b => b.firstWords (b.read / 64 * 64) } }
  else d

/-- PAGE_STORE_READ acts in a slot of the page's bank that is the keel store's (R62, R227); the RETAIN entry sequence has no timetable,
and there every slot that no access has taken is (R145). -/
def Dev.readTurn (d : Dev) : Dev :=
  match d.kl.reading with
  | some b =>
    if d.readsTallies && d.taskNow .tally then d else
    let bank := b.page / 512
    let free := d.ar.lastUse.getD bank none != some d.now
    if (d.pw.retainEntry && free) || d.mayUse 7 bank then (d.useBank bank).readPageWord else d
  | none => d

/-- A retirement that a finished commit carried is complete (R214 step 5, R216). -/
def Dev.retireDone (d : Dev) (m : MapCopy) : Dev :=
  match d.ar.retire with
  | none => d
  | some j =>
    if j.bankJob then
      if m.bankRet.contains j.page then
        let d := { d with ar := { d.ar with retire := none, retState := 0,
                                            bankRetPending := setInsert j.page d.ar.bankRetPending } }
        (d.logErr (524288 * j.page) 9 .bankRetired 0 false .none).finishIf j.port 0x0021 0
      else d
    else if j.copied ∧ ((assoc m.retired j.spare).map fun r => r.page) = some (j.page % 512) then
      let old := (List.range 32).zip d.ar.retMap
      let f : Nat × Retired → Retired := fun x =>
        if x.1 = j.spare then { page := j.page % 512, inUse := true }
        else if x.1 / 8 = j.page / 512 ∧ x.2.inUse ∧ x.2.page = j.page % 512 then { page := 0, inUse := false }
        else x.2
      let d := { d with ar := { d.ar with retire := none, retState := 0, retMap := old.map f } }
      ((d.logErr (1024 * j.page) 9 .pageRetired 0 false .none).fire 20).finishIf j.port 0x0020 0
    else d

/-- A map commit ends (R229): its copy is valid, its page stores are current, previous copies are free. -/
def Dev.endCommit (d : Dev) (c : MapCommit) : Dev :=
  let slot := (d.validMap.map Prod.fst).getD 1
  let k := { d.kl with commit := none, logical := coverAll d.kl.logical c.covers,
                       uncovered := d.kl.uncovered.drop c.covers.length, released := [], stuck := false }
  let k := if d.lb.spent then k else if slot = 0 then { k with map1 := some c.copy } else { k with map0 := some c.copy }
  { d with kl := k }.retireDone c.copy

/-- A map commit stands at its last slot. -/
def MapCommit.dueAt (c : MapCommit) (now : Nat) : Bool := decide (c.startAt + commitSlots ≤ now + 1)

/-- A map commit's last slot. Where a page store commits in the same slot, the next steps are that commit's (R231). -/
def Dev.commitDue (d : Dev) (c : MapCommit) : Dev :=
  let d := d.endCommit c
  if c.final || d.programDue then d else (d.followUp.checkNext.beginRead).beginProgram (d.now + 1)

/-- The highest and the lowest store count among the good physical pages (R235, R243). -/
def Dev.wearRange (d : Dev) : Nat × Nat :=
  let good := (List.range physPages).filter fun p => !(d.phys p).bad
  ((good.map fun p => (d.phys p).count).foldl max 0,
   match good with
   | [] => 0
   | p :: ps => (ps.map fun q => (d.phys q).count).foldl min (d.phys p).count)

/-- A move of one logical page, where wear calls for one and nothing waits (R235): the newest copy of a page, covered by a map commit or
not, is the one that is copied. -/
def Dev.wearMove (d : Dev) : Dev :=
  if d.kl.pages.isEmpty && decide (d.inFlight = 0) && !d.keelSilent
      && decide ((d.wearRange).2 + 65536 < (d.wearRange).1) then
    let held := (coverAll d.kl.logical d.kl.uncovered).filterMap fun x => x.2.phys
    match d.leastWorn held with
    | some p =>
      match (d.phys p).copy with
      | some c =>
        let b : PageBuf := { page := c.page, logical := c.logical, data := c.data, uncorr := c.uncorr,
                             written := c.written, append := c.append, read := 1024, move := true }
        { d with kl := { d.kl with buffers := [b] } }
      | none => d
    | none => d
  else d

/-- A checkpoint entry's first slot may start a map commit: none since RUN was entered from WAKE, or the last that an entry started
began at least 100 ms before (R234). -/
def Dev.checkpointOpen (d : Dev) : Bool :=
  match d.kl.lastCkpt with
  | none => true
  | some t => decide (100000000 ≤ (d.ck.tick - t) * d.ck.lenReg)

/-- What the first slot of a trickle or checkpoint entry does (R233 to R235). -/
def Dev.keelEntry (d : Dev) (t : Task) : Dev :=
  match t with
  | .trickle => d.wearMove.beginProgram d.now
  | .checkpoint =>
    let d := if d.kl.commit.isNone && !d.kl.uncovered.isEmpty && d.checkpointOpen && d.keelKeeps then
        let e := d.startCommit false d.now
        { e with kl := { e.kl with lastCkpt := some d.ck.tick } }
      else d
    d.beginProgram d.now
  | .tally => d.rereadBlock
  | _ => d

/-- Step 1 and 2 of a store sequence (R236): a running commit is abandoned, moves are dropped, every page that is not
CLEAN is to be stored; with none, the final commit begins at once. -/
def Dev.beginStores (d : Dev) : Dev :=
  let prog := d.kl.prog.filter fun g => !g.buf.move
  let d := { d with kl := { d.kl with commit := none, prog := prog, buffers := d.kl.buffers.filter fun b => !b.move,
                                      waiting := false, stuck := false, poolAt := none, seqStart := some d.now } }
  if d.keelSilent then d
  else if d.kl.pages.isEmpty then d.startCommit true d.now
  else d.beginRead.beginProgram d.now

/-- The length of a store sequence that ends now, its first and last slot included, in µs (R243); the spec states no value for a
length that the field cannot hold (DESIGN CHOICE, log entry 46). -/
def Dev.endStores (d : Dev) : Dev :=
  match d.kl.seqStart with
  | some t =>
    let us := (d.now + 1 - t) / 1000
    if us < 16384 then { d with kl := { d.kl with seqStart := none, storeUs := us } }
    else { d with draws := d.draws + 1, kl := { d.kl with seqStart := none, storeUs := (Config.freeWord d.draws).toNat } }
  | none => d

/-- The page of a store commits, or fails to verify, in the order of R231. -/
def Dev.storeCommit (d : Dev) (verified : Bool) : Dev :=
  match d.kl.prog with
  | none => d
  | some g =>
    let d := match d.kl.commit with
      | some c => if c.dueAt d.now && !c.final then d.endCommit c else d
      | none => d
    if verified then ((d.commitPage g.buf g.phys).followUp.poolStep.beginRead).beginProgram (d.now + 1)
    else d.programFailed g.buf g.phys

/-! ### Recall (R239 to R241) -/

/-- The persistent pages of the loaded image, ascending by hold and page. -/
def Dev.persistentPages (d : Dev) : List Nat :=
  (d.ar.holds.filter fun h => h.persistent).flatMap fun h => (List.range h.pages).map fun i => h.base + i

/-- Recall writes a code word; a retired bank takes none (R216). -/
def Dev.recallSet (d : Dev) (a : Nat) (c : Code) : Dev := if d.bankDead a then d else d.rawSet a c

/-- Write the words of a recalled copy (R240). -/
def Dev.recallWords (d : Dev) (page : Nat) (bad : Bool) (uncorr : List Nat) : List (Nat × Word) → Dev
  | [] => d
  | (o, w) :: r =>
    let c := if bad || uncorr.contains o then flaggedCode w else encodeWord w
    (d.recallSet (1024 * page + o) c).recallWords page bad uncorr r

/-- Flagged words whose stored data bits are zero (R240). -/
def Dev.recallFlags (d : Dev) (page : Nat) (data : List (Nat × Word)) : List Nat → Dev
  | [] => d
  | o :: r =>
    let d := if (assoc data o).isSome then d else d.recallSet (1024 * page + o) (flaggedCode 0#14)
    d.recallFlags page data r

/-- Bind a page with no logical page to the lowest unbound logical page, or to the lowest stale one (R241; the choice
among unbound pages is DESIGN CHOICE, log entry 25). -/
def Dev.bindPage (d : Dev) (page : Nat) : Dev :=
  let unbound := (List.range 1024).find? fun l => (d.logicalPage l).page.isNone && (d.logicalPage l).phys.isNone
  match unbound with
  | some l => { d with kl := { d.kl with logical := assocSet d.kl.logical l { page := some page, phys := none } } }
  | none =>
    match d.kl.stale with
    | l :: ls =>
      let rel := match (d.logicalPage l).phys with
        | some p => p :: d.kl.released
        | none => d.kl.released
      { d with kl := { d.kl with stale := ls, released := rel,
                                 logical := assocSet d.kl.logical l { page := some page, phys := none } } }
    | [] => d

/-- Recall one page (R240, R241). -/
def Dev.recallPage (d : Dev) (page : Nat) : Dev :=
  match d.logicalOf page with
  | none => d.bindPage page
  | some l =>
    match (d.logicalPage l).phys.bind fun p => (d.phys p).copy with
    | none => d
    | some c =>
      let d := d.recallWords page (!c.crcOk) c.uncorr c.data
      let d := d.recallFlags page c.data (if c.crcOk then c.uncorr else List.range 1024)
      let wr := if c.crcOk && d.vaultPage page then c.written.map fun o => 1024 * page + o else []
      let d := { d with ar := { d.ar with written := wr.foldl (fun l a => setInsert a l) d.ar.written } }
      if c.crcOk then d
      else { d with kl := { d.kl with recallErr := satInc 14 d.kl.recallErr } }.fireFirst 22

/-- The pointer of a persistent append-only hold: of its pages with a valid pointer, the one stored last (R223). -/
def Dev.recallPointer (d : Dev) (h : Hold) : Nat :=
  let cs := (List.range h.pages).filterMap fun i =>
    ((d.logicalOf (h.base + i)).bind fun l => (d.logicalPage l).phys).bind fun p => (d.phys p).copy
  let cs := cs.filter fun c => c.crcOk && c.append.isSome
  match cs with
  | [] => 0
  | c :: r => ((r.foldl (fun x y => if x.order < y.order then y else x) c).append).getD 0

/-- Spares are taken in ascending order and never return (R214), so the free ones lie above the last in service. The retirement map and the tables as the valid map copy gives them, before the fill (R200, R239). -/
def Dev.recallMap (d : Dev) : Dev :=
  match d.validMap with
  | none =>
    { d with kl := { d.kl with noMap := true, logical := [], stale := [] }, pw := { d.pw with limpCause := 4 } }
  | some (_, m) =>
    let phys := (List.range physPages).filterMap fun p =>
      let w := (assoc m.wear p).getD (0, false)
      let x : Phys := { count := w.1, bad := w.2, copy := (d.phys p).copy }
      if x = {} then none else some (p, x)
    let ret := (List.range 32).map fun i => (assoc m.retired i).getD {}
    let spare := (List.range 4).map fun b =>
      8 - (((List.range 8).filter fun i => (ret.getD (8 * b + i) {}).inUse).map Nat.succ).foldl max 0
    { d with kl := { d.kl with known := true, noMap := false, logical := m.logical, phys := phys },
             ar := { d.ar with retMap := ret, bankRet := m.bankRet, bankRetPending := [], spares := spare } }

/-- The recall of every persistent hold (R239 to R241). -/
def Dev.recallPages (d : Dev) : Dev :=
  let pages := d.persistentPages
  let stale := (d.kl.logical.filter fun x => match x.2.page with
    | some p => !pages.contains p
    | none => false).map Prod.fst
  let d := { d with kl := { d.kl with stale := stale.foldl (fun l x => setInsert x l) [], released := [] } }
  let d := pages.foldl (fun d p => d.recallPage p) d
  let holds := d.ar.holds.map fun h =>
    if h.policy = .append then { h with append := if h.persistent then d.recallPointer h else 0 } else { h with append := 0 }
  { d with ar := { d.ar with holds := holds } }

end Sys2Proof.Machine
end

