-- ==== Sys2Proof/Machine/Scrub.lean ====
section
/-!
DEFINITION. The scrubber's slots: raw operations, repairs, sweeps, stripe tests, retirement copies and range passes; the
error log's clear; and the pilot commands that start long jobs (R201 to R218).
-/
namespace Sys2Proof.Machine
open Sys2Proof

/-- The words of a bank's sweep (R201). -/
def sweepLen (bank : Nat) : Nat := if bank = 3 then 471040 else 524288

/-- The address at an offset of a bank's sweep (R201). -/
def sweepAddr (bank off : Nat) : Nat :=
  if bank = 3 ∧ 458752 ≤ off then 0x1F4000 + (off - 458752) else 524288 * bank + off

/-- Change a bank's scrubber state. -/
def Dev.modBank (d : Dev) (b : Nat) (f : ScrubBank → ScrubBank) : Dev :=
  { d with ar := { d.ar with banks := d.ar.banks.modify b f } }

/-- A bank's scrubber state. -/
def Dev.scrubBank (d : Dev) (b : Nat) : ScrubBank := d.ar.banks.getD b {}

/-- The scrubber owes the bank a write-back after a sweep read or a range read (R203). -/
def Dev.oweBack (d : Dev) (a : Nat) (w : Word) : Dev :=
  d.modBank (bankOf a) fun b => { b with wb := some { addr := a, data := w, touched := false } }

/-- A write-back: suppressed where a write has reached the word since (R203). -/
def Dev.writeBack (d : Dev) (w : WriteBack) : Dev :=
  if w.touched then { d with ar := { d.ar with suppr := satInc 14 d.ar.suppr } }
  else if d.bankDead w.addr then d
  else d.rawSet w.addr (encodeWord w.data)

/-- Serve the oldest address of the repair queue (R191): a corrected re-read is neither logged nor counted again. -/
def Dev.repairRead (d : Dev) (bank a : Nat) : Dev :=
  let d := d.modBank bank fun b => { b with repair := b.repair.drop 1 }
  let r := d.checkAt a
  let (d, r) := if d.pw.mode = .replay then d.replayRead a 6 r else (d, r)
  match r.out with
  | .clean => d
  | .corrected => (d.captureCheck a 6 r.syndrome r.parity false).modBank bank fun b =>
      { b with rwb := some { addr := a, data := r.data, touched := false } }
  | .uncorrectable => d.noteCheck a 6 r

/-- The next sweep read of a bank (R201 to R203). -/
def Dev.sweepRead (d : Dev) (bank : Nat) : Dev :=
  let off := (d.scrubBank bank).bptr
  let (d, r) := d.readArr 6 (sweepAddr bank off)
  let d := match r.out with
    | .clean => d
    | .corrected =>
      { d with ar := { d.ar with scrCorr := satInc 14 d.ar.scrCorr } }.oweBack (sweepAddr bank off) r.data
    | .uncorrectable => { d with ar := { d.ar with scrUncorr := satInc 14 d.ar.scrUncorr } }
  let ends := decide (sweepLen bank ≤ off + 1)
  let d := d.modBank bank fun b =>
    { b with bptr := if ends then 0 else off + 1, readsThisTick := b.readsThisTick + 1 }
  if ends then { d with ar := { d.ar with sweeps := satInc 14 d.ar.sweeps } } else d

/-! ### Raw operations (R217, R218) -/

/-- The address lies in a volatile hold, the open array or the event queue pages (R218). -/
def Dev.rawAllowed (d : Dev) (a : Nat) : Bool :=
  match d.region a with
  | .hold n => !(d.hold n).persistent
  | .openArray | .queue => true
  | _ => false

/-- A write of an operation to ECC_RAW_CMD. -/
def Dev.rawStart (d : Dev) (op : RawOp) : Dev :=
  if !d.ar.rawEn then { d with ar := { d.ar with rawResult := 2 } }
  else if !d.rawAllowed d.ar.rawAddr then { d with ar := { d.ar with rawResult := 1 } }
  else { d with ar := { d.ar with rawOp := some (op, d.ar.rawAddr, rawCode (wd d.ar.rawData) d.ar.rawChk),
                                  rawResult := 0 } }

/-- The word lies in the stripe under test (R218). -/
def Dev.inStripe (d : Dev) (a : Nat) : Bool :=
  match d.ar.stripe with
  | some j => decide (j.base ≤ a) && decide (a < j.base + 64)
  | none => false

/-- Perform a raw operation. In a retired bank a read finds data 0 with check bits the spec leaves open, and a write is
refused (R216). -/
def Dev.rawRun (d : Dev) (op : RawOp) (a : Nat) (c : Code) : Dev :=
  let d := { d with ar := { d.ar with rawOp := none } }
  if d.bankDead a then
    match op with
    | .read => { d with draws := d.draws + 1, ar := { d.ar with rawData := 0, rawChk := (Config.rawRetired d.draws).toNat } }
    | _ => { d with ar := { d.ar with rawResult := 1 } }
  else match op with
    | .read =>
      let c := d.rawGet a
      { d with ar := { d.ar with rawData := (codeData c).toNat, rawChk := codeCheck c } }
    | .write => ((d.rawSet a c).touchScrub a).emitWrite a (codeData c)
    | .check =>
      let w := codeData (d.rawGet a)
      ((d.rawSet a (rawCode w (codeCheck c))).touchScrub a).emitWrite a w

/-! ### Long jobs (R204 to R211, R214) -/

/-- Store a pattern in the array below the stripe buffer (R208 steps 2 and 3). -/
def Dev.underSet (d : Dev) (a : Nat) (c : Code) : Dev := { d with ar := { d.ar with mem := cellsSet d.ar.mem a c } }

/-- A CHECK record of the tick being played names a stripe failure of a word in this slot (R470, R479). -/
def Replay.stripeHit (r : Replay) (slot a : Nat) : Bool :=
  r.checks.any fun c => decide (c.slot = slot) && bit (c.words.getD 0 0#14).toNat 10
    && decide (ofWords (c.words.drop 3) % 2097152 = a)

/-- A raw read-back differs from its pattern (R210): one entry for each failing word; the first counts the stripe and fires
STRIPE_FAIL (the slot of the count is DEDUCED, log entry 100). -/
def Dev.stripeMiss (d : Dev) (j : StripeJob) (a : Nat) : Dev × StripeJob :=
  if j.failed.contains j.idx then (d, j)
  else
    let d := (d.captureCheck a 6 0 false true).logErr a 6 .stripeFail 0 false .none
    let d := if j.failed.isEmpty then { d with ar := { d.ar with stripeFail := satInc 14 d.ar.stripeFail } }.fire 19 else d
    (d, { j with failed := j.idx :: j.failed })

/-- A word of the stripe under test is read back raw (R208): the cells answer the stored pattern but for the bits of `fault`, which the
array's cells fail to hold; in a replay the logged outcome counts (R479). -/
def Dev.stripeRead (d : Dev) (j : StripeJob) (a : Nat) (pattern fault : Code) : Dev × StripeJob :=
  let live := (cellsGet d.ar.mem a ^^^ fault) != pattern
  match d.lb.replay.filter fun _ => d.pw.mode == .replay with
  | none => if live then d.stripeMiss j a else (d, j)
  | some r =>
    if r.stripeHit d.ck.slot a then d.stripeMiss j a
    else if live then ({ d with lb := { d.lb with benchErr := satInc 14 d.lb.benchErr } }, j)
    else (d, j)

/-- The stripe is written back: count the test or move the retirement on (R208, R210, R214). -/
def Dev.stripeEnd (d : Dev) (j : StripeJob) : Dev :=
  let d := { d with ar := { d.ar with stripe := none } }
  if j.retire then
    match d.ar.retire with
    | some t =>
      if t.stripe + 1 = 16 then
        let d := { d with ar := { d.ar with retire := some { t with stripe := 16, copied := true }, retState := 2 } }
        if d.kl.commit.isNone && !d.storing then d.startCommit false d.now else d
      else { d with ar := { d.ar with retire := some { t with stripe := t.stripe + 1 } } }
    | none => d
  else
    let d := { d with ar := { d.ar with stripes := satInc 14 d.ar.stripes } }
    d.modBank j.bank fun b =>
      { b with stripePtr := if sweepLen j.bank ≤ b.stripePtr + 64 then 0 else b.stripePtr + 64 }

/-- The phase after a stripe's 64th word. -/
def StripeJob.nextPhase (j : StripeJob) : StripePhase :=
  match j.phase with
  | .copy => if j.retire then .back else .write5
  | .write5 => .read5
  | .read5 => .writeA
  | .writeA => .readA
  | .readA => .back
  | .back => .back

/-- What step 1 of R208 puts into the stripe buffer: a corrected word corrected, with its outcome, an uncorrectable word raw. -/
def Dev.buffered (d : Dev) (a : Nat) (r : Decoded) : Buffered :=
  match r.out with
  | .uncorrectable => { code := d.rawGet a }
  | .corrected => { code := encodeWord r.data, was := some r }
  | .clean => { code := encodeWord r.data }

/-- One slot of the stripe in progress (R208). -/
def Dev.stripeStep (d : Dev) (j : StripeJob) (fault : Code) : Dev :=
  let a := j.base + j.idx
  let done := decide (63 ≤ j.idx)
  let (d, j) : Dev × StripeJob := match j.phase with
    | .copy =>
      let (d, r) := d.readArr 6 a
      (d, { j with buf := j.buf ++ [d.buffered a r] })
    | .write5 => (d.underSet a 0x55555#20, j)
    | .read5 => d.stripeRead j a 0x55555#20 fault
    | .writeA => (d.underSet a 0xAAAAA#20, j)
    | .readA => d.stripeRead j a 0xAAAAA#20 fault
    | .back => (d.underSet a (j.buf.getD j.idx { code := 0#20 }).code, j)
  if done then
    if j.phase = .back then d.stripeEnd j
    else { d with ar := { d.ar with stripe := some { j with phase := j.nextPhase, idx := 0 } } }
  else { d with ar := { d.ar with stripe := some { j with idx := j.idx + 1 } } }

/-- The address after another, in the array words a range pass reads (R205). -/
def rangeNext (a : Nat) : Nat := if a = 0x1EFFFF then 0x1F4000 else a + 1

/-- The summary of a range pass (R207), as the reply of SCRUB_RANGE. -/
def RangePass.summary (p : RangePass) : List Word :=
  wd 0x0022 :: twoWords (p.words % 2097152) ++ [wd (min 0x3FFF p.corr), wd (min 0x3FFF p.uncorr)]
    ++ twoWords (p.firstFail.getD 0x1FFFFF) ++ twoWords (p.lastFail.getD 0x1FFFFF)

/-- One read of the running range pass, and its end (R205 to R207). -/
def Dev.rangeRead (d : Dev) (p : RangePass) : Dev :=
  let (d, r) := d.readArr 6 p.pos
  let bad := r.out ≠ .clean
  let p' := { p with words := p.words + 1, corr := p.corr + b2n (r.out == .corrected),
                     uncorr := p.uncorr + b2n (r.out == .uncorrectable),
                     firstFail := if bad ∧ p.firstFail = none then some p.pos else p.firstFail,
                     lastFail := if bad then some p.pos else p.lastFail, pos := rangeNext p.pos }
  let d := if r.out = .corrected then d.oweBack p.pos r.data else d
  if p.last < p'.pos then
    let d := { d with ar := { d.ar with ranges := d.ar.ranges.drop 1 } }
    d.finishWith p.port p'.summary 0
  else { d with ar := { d.ar with ranges := p' :: d.ar.ranges.drop 1 } }

/-- Put a stripe into the stripe buffer and take its first word. -/
def Dev.stripeBegin (d : Dev) (j : StripeJob) (fault : Code) : Dev :=
  let d := if j.retire then d else { d with ar := { d.ar with stripeAddr := j.base } }
  d.stripeStep j fault

/-- A slot that neither repairs nor sweeps goes to the long job (R204 step 3): the stripe in progress, a retirement copy,
the range passes in order, the next stripe test. The stripe test takes the bank whose slot finds no job (DESIGN CHOICE, log entry
12), and none walks a retired bank (DESIGN CHOICE, log entry 101). -/
def Dev.longJob (d : Dev) (bank : Nat) (fault : Code) : Dev :=
  match d.ar.stripe with
  | some j => if j.bank = bank then d.stripeStep j fault else d
  | none =>
    match d.ar.retire.filter fun t => !t.copied && !t.bankJob with
    | some t =>
      if t.page / 512 = bank then
        d.stripeBegin { bank := bank, base := 1024 * t.page + 64 * t.stripe, retire := true } fault
      else d
    | none =>
      match d.ar.ranges with
      | p :: _ => if bankOf p.pos = bank then d.rangeRead p else d
      | [] =>
        if d.ar.stripeEn && !d.ar.bankRet.contains bank then
          d.stripeBegin { bank := bank, base := sweepAddr bank (d.scrubBank bank).stripePtr } fault
        else d

/-- One scrubber slot of a bank (R204): a raw operation; the write-back of a served repair address; the repair queue; the write-back
that a read needs; the next sweep read; the long job. `fault` is what a stripe read-back finds wrong. -/
def Dev.scrubSlot (d : Dev) (bank : Nat) (fault : Code) : Dev :=
  let b := d.scrubBank bank
  match d.ar.rawOp.filter fun x => decide (bankOf x.2.1 = bank) && !d.inStripe x.2.1 with
  | some (op, a, c) => d.rawRun op a c
  | none =>
    match b.rwb, b.repair, b.wb with
    | some w, _, _ => (d.modBank bank fun b => { b with rwb := none }).writeBack w
    | none, a :: _, _ => d.repairRead bank a
    | none, [], some w => (d.modBank bank fun b => { b with wb := none }).writeBack w
    | none, [], none => if b.readsThisTick < d.ar.rate then d.sweepRead bank else d.longJob bank fault

/-- SCRUB_SLOT acts in a slot of the bank that is the scrubber's (R62, R204). -/
def Dev.scrubTurn (d : Dev) (bank : Nat) (fault : Code) : Dev :=
  if d.mayUse 6 bank then (d.useBank bank).scrubSlot bank fault else d

/-- At a tick boundary a write-back not made goes to the repair queue, and the rate counts afresh (R203, R204). -/
def Dev.scrubBoundary (d : Dev) : Dev :=
  let owed := d.ar.banks.flatMap fun b => (b.rwb.toList ++ b.wb.toList).map WriteBack.addr
  let d := owed.foldl (fun d a => d.queueRepair a) d
  { d with ar := { d.ar with banks := d.ar.banks.map fun b => { b with rwb := none, wb := none, readsThisTick := 0 } } }

/-- Clear the error log (R213). -/
def Dev.logClear (d : Dev) (v : Word) : Dev :=
  if v = 1#14 then
    { d with ar := { d.ar with log := List.replicate 64 none, logHead := 0, logWrapped := false, logNewest := none } }
  else d

/-- Set the shadow of SCR_RATE, clamped to SCR_LIMIT (R202). -/
def Dev.rateWrite (d : Dev) (v : Word) : Dev :=
  { d with ar := { d.ar with rateSh := min (v.toNat % 8192) d.ar.limit } }

/-- A write of ECC_TEST: raw_en can be set only in SERVICE (R217). -/
def Dev.testWrite (d : Dev) (v : Word) : Dev :=
  if d.pw.mode = .service then { d with ar := { d.ar with rawEn := bit v.toNat 0 } } else d

/-- Start a page retirement (R214). Of several codes the lowest answers (the spec gives no order: DESIGN CHOICE, log entry 102). -/
def Dev.retirePage (d : Dev) (p : Port) (c : Cmd) : Dev :=
  let page := c.word 1
  let ok := decide (page < 1984) || (decide (2000 ≤ page) && decide (page < 2012))
  let b := page / 512
  let free := d.ar.spares.getD b 0
  if !ok || d.ar.bankRet.contains b then d.finish p 0x0201
  else if free = 0 then d.finish p 0x0202
  else if d.ar.retire.isSome then d.finish p 0x0203
  else
    { d with ar := { d.ar with retire := some { port := p, page := page, spare := 8 * b + (8 - free) },
                               retState := 1, retPage := page, spares := d.ar.spares.set b (free - 1) } }.setStarted p

/-- Start a bank retirement: its map commit begins once no other runs (R216). -/
def Dev.retireBank (d : Dev) (p : Port) (c : Cmd) : Dev :=
  let b := c.word 1
  if 2 < b ∨ d.ar.bankRet.contains b ∨ d.ar.bankRetPending.contains b then d.finish p 0x0201
  else if d.ar.retire.isSome then d.finish p 0x0203
  else
    let d := { d with ar := { d.ar with retire := some { port := p, page := b, spare := 0, bankJob := true },
                                        retState := 2 } }.setStarted p
    if d.kl.commit.isNone && !d.storing then d.startCommit false d.now else d

/-- An address of a range (R205). -/
def rangeAddr (a : Nat) : Bool := decide (a < 0x1F0000) || (decide (0x1F4000 ≤ a) && decide (a < 0x1F7000))

/-- Take a range request (R205, R206). -/
def Dev.scrubRange (d : Dev) (p : Port) (c : Cmd) : Dev :=
  let a := c.value 1 2
  let b := c.value 3 2
  if rangeAddr a ∧ rangeAddr b ∧ a ≤ b then
    if d.ar.ranges.length < 2 then
      let r : RangePass := { port := p, first := a, last := b, pos := a }
      { d with ar := { d.ar with ranges := d.ar.ranges ++ [r] } }.setStarted p
    else d.finish p 0x3FF4
  else d.finish p 0x0204

end Sys2Proof.Machine
end

