-- ==== Sys2Proof/Machine/Records.lean ====
section
/-!
DEFINITION. Record slots of the sealed hold: geometry, state words, the slot of a history, the header at a freeze, the seal
queue, and what FILL rebuilds (R353 to R358, R361).
-/
namespace Sys2Proof.Machine
open Sys2Proof

/-- Blocks of 32 samples that hold a number of ticks. -/
def blocksFor (ticks : Nat) : Nat := ceilDiv ticks 32

/-- Words of one channel area: 33·(N + 1 + P) (13_packer, Where blocks lie). -/
def Dev.areaWords (d : Dev) : Nat := 33 * (blocksFor d.pk.pre + 1 + blocksFor d.pk.post)

/-- The worst-case record W of R98. -/
def Dev.recordWords (d : Dev) : Nat := 80 + d.pk.nCh * d.areaWords

/-- The sealed hold the packer section names. -/
def Dev.sealedHold (d : Dev) : Hold := d.hold d.pk.sealedHold

/-- The first address of a record slot (R353). -/
def Dev.slotBase (d : Dev) (i : Nat) : Nat := 1024 * d.sealedHold.base + i * d.ks.wRec

/-- The first address of a channel's area in a slot (R353). -/
def Dev.chanBase (d : Dev) (slot c : Nat) : Nat := d.slotBase slot + 16 + c * d.areaWords

/-- The first address of a slot's trailer (R353). -/
def Dev.trailerBase (d : Dev) (i : Nat) : Nat := d.slotBase i + d.ks.wRec - 64

/-- A slot's record. -/
def Dev.slotRec (d : Dev) (i : Nat) : RecSlot := d.ks.recs.getD i {}

/-- The state word of a slot (R354). -/
def RecSlot.stateWord (r : RecSlot) : Word :=
  wd (r.state.code + 8 * r.belays + 64 * b2n r.ucSeal + 128 * b2n r.repaired)

/-- Change a slot's record and write its state word (R354). -/
def Dev.modRec (d : Dev) (i : Nat) (f : RecSlot → RecSlot) : Dev :=
  let d := { d with ks := { d.ks with recs := d.ks.recs.modify i f } }
  d.writeArr (d.trailerBase i + 57) (d.slotRec i).stateWord

/-- Change a slot's record where its state word stays as it is. -/
def Dev.modRecQuiet (d : Dev) (i : Nat) (f : RecSlot → RecSlot) : Dev :=
  { d with ks := { d.ks with recs := d.ks.recs.modify i f } }

/-- The slots of the sealed hold in cyclic order after a slot. -/
def cyclicAfter (k i : Nat) : List Nat := (List.range k).map fun j => (i + 1 + j) % k

/-- A slot a new history may take (R355). -/
def SlotState.takable : SlotState → Bool
  | .free | .rolling | .local' | .roped | .mismatch => true
  | _ => false

/-- A slot that holds a record (R354). -/
def SlotState.record : SlotState → Bool
  | .free | .rolling => false
  | _ => true

/-- The slot the next history takes, if one qualifies (R355). -/
def Dev.nextSlot (d : Dev) : Option Nat :=
  (cyclicAfter d.ks.slots d.ks.lastHist).find? fun i => (d.slotRec i).state.takable

/-- A history takes its slot (R355). -/
def Dev.takeSlot (d : Dev) (i : Nat) : Dev :=
  let overs := (d.slotRec i).state = .local' ∧ d.sealedHold.rope ≠ 0
  let d := if overs then { d with ks := { d.ks with overwritten := satInc 14 d.ks.overwritten } } else d
  let roping := d.rg.roping.filter fun r => r.1 != i
  let d := { d with ks := { d.ks with lastHist := i, before := d.ks.before.filter fun x => x.1 != i },
                    rg := { d.rg with roping := roping } }
  d.modRec i fun _ => { state := .rolling }

/-- The node ID, 0 without a ring (R358). -/
def Dev.node (d : Dev) : Nat := if d.rg.numbered then d.rg.nodeId else 0

/-- Header word 2 (R358). -/
def Dev.headerWord2 (d : Dev) (trig : Nat) (chainStart cutShort : Bool) : Word :=
  wd (d.node + 1024 * b2n chainStart + 2048 * b2n cutShort + 4096 * trig)

/-- Header word 8 (R358). -/
def Dev.headerWord8 (d : Dev) (extra : Nat) : Word := wd (d.pk.nCh + 32 * d.pk.frzLen + 1024 * min 15 extra)

/-- The descriptors of the channels as words 9 to 15 hold them (R358). -/
def descValue : List PkrChan → Nat
  | [] => 0
  | c :: cs => c.desc % 64 + 64 * descValue cs

/-- The record of the capture, if one is open. -/
def Dev.openRec (d : Dev) : Option Nat := if d.pk.recOpen then d.pk.hist.map Prod.snd else none

/-- The record takes its sequence, and the header is written but for chain_start and word 8 (R357, R358). -/
def Dev.openRecord (d : Dev) (i trig : Nat) : Dev :=
  let seq := d.ks.nextSeq
  let d := { d with ks := { d.ks with nextSeq := seq + 1 } }
  let d := d.modRec i fun r => { r with state := .capture, seq := seq, cutShort := false, extra := 0, members := [] }
  let b := d.slotBase i
  let d := d.writeRun b (twoWords seq ++ [d.headerWord2 trig false false] ++ toWords d.ck.tick 3
    ++ [wd d.pk.pre, wd d.pk.post])
  d.writeRun (b + 9) (toWords (descValue (d.pk.chans.take d.pk.nCh)) 7)

/-- The next sequence may still be given (R357). -/
def Dev.seqLeft (d : Dev) : Bool := decide (d.ks.nextSeq < 0x10000000)

/-- Extra triggers and requests taken during HOLD (R358); until word 8 has been written with frz_len they wait. -/
def Dev.countExtra (d : Dev) (n : Nat) : Dev :=
  match d.openRec with
  | some i =>
    let d := d.modRecQuiet i fun r => { r with extra := min 15 (r.extra + n) }
    if d.pk.wordDue then d else d.writeArr (d.slotBase i + 8) (d.headerWord8 (d.slotRec i).extra)
  | none => d

/-! ### The seal queue (R30, R362) -/

/-- A closed record enters the seal queue, or waits outside it (R30): its place is one of four. -/
def Dev.enqueue (d : Dev) (i : Nat) : Dev :=
  if d.ks.queue.length < 4 then
    { d with ks := { d.ks with queue := d.ks.queue ++ [i], sealFree := d.ks.sealFree - 1 } }
  else { d with ks := { d.ks with held := d.ks.held ++ [i] } }.stall 20

/-- At a boundary the records outside the queue enter while places are free (R30). -/
def Dev.admitHeld (d : Dev) : Dev :=
  let n := min (4 - d.ks.queue.length) d.ks.held.length
  { d with ks := { d.ks with queue := d.ks.queue ++ d.ks.held.take n, held := d.ks.held.drop n,
                             sealFree := d.ks.sealFree - n } }

/-- Header word 2 takes cut_short as the record closes, so before hashing begins (R357, R358). -/
def Dev.markCut (d : Dev) (i : Nat) : Dev :=
  let (d, w) := d.readNat 4 (d.slotBase i + 2)
  if bit w 11 then d else d.writeArr (d.slotBase i + 2) (wd (w + 2048))

/-- The open record closes (R29, R342). -/
def Dev.closeRecord (d : Dev) (cut : Bool) : Dev :=
  match d.openRec with
  | some i =>
    let d := d.modRec i fun r => { r with state := .closed, cutShort := cut }
    let d := if cut then d.markCut i else d
    { d with pk := { d.pk with recOpen := false } }.enqueue i
  | none => d

/-! ### What FILL rebuilds (R357, R361) -/

/-- A slot as its state word and header show it after recall, read through the checker by the seal engine (R189, R357). -/
def Dev.readSlot (d : Dev) (i : Nat) : Dev × RecSlot :=
  let b := d.slotBase i
  let (d, s0) := d.readNat 4 b
  let (d, s1) := d.readNat 4 (b + 1)
  let (d, h2) := d.readNat 4 (b + 2)
  let (d, h8) := d.readNat 4 (b + 8)
  let (d, w) := d.readNat 4 (d.trailerBase i + 57)
  (d, { state := SlotState.ofCode (w % 8), belays := field w 3 3, ucSeal := bit w 6, repaired := bit w 7,
        seq := s0 + 16384 * s1, cutShort := bit h2 11, extra := field h8 10 4 })

/-- Slots as they stand after recall. -/
def Dev.readSlots (d : Dev) : List Nat → Dev × List RecSlot
  | [] => (d, [])
  | i :: is =>
    let (d, r) := d.readSlot i
    let (d, rs) := d.readSlots is
    (d, r :: rs)

/-- All `k` members of the rope team hold the record. -/
def RecSlot.allBelayed (r : RecSlot) (k : Nat) : Bool := decide (0 < k) && decide (k ≤ r.belays)

/-- A slot's state after a start (R357). The members' states are lost: a LOCAL record is replicated from the start, with no belay
counted; a record that was ROPED has all its belays (R414; DEDUCED, log entry 103). -/
def RecSlot.afterStart (r : RecSlot) (k : Nat) : RecSlot :=
  match r.state with
  | .rolling => { r with state := .free }
  | .capture => { r with state := .closed, cutShort := true }
  | .sealing => { r with state := .closed }
  | .local' => { r with belays := 0 }
  | .roped | .mismatch => if r.allBelayed k then { r with members := List.replicate k .belayed } else r
  | _ => r

/-- The slot with the highest sequence among those that satisfy a test. -/
def Dev.topSlot (d : Dev) (ok : RecSlot → Bool) : List Nat → Option Nat
  | [] => none
  | i :: is =>
    match d.topSlot ok is with
    | some j => if ok (d.slotRec i) && decide ((d.slotRec j).seq < (d.slotRec i).seq) then some i else some j
    | none => if ok (d.slotRec i) then some i else none

/-- Insert a slot by its record's sequence. -/
def Dev.bySeq (d : Dev) (i : Nat) : List Nat → List Nat
  | [] => [i]
  | j :: js => if (d.slotRec j).seq < (d.slotRec i).seq then j :: d.bySeq i js else i :: j :: js

/-- Signature words of a slot's trailer, as the seal engine reads them, and whether one reads uncorrectable (R189, R359). -/
def Dev.sigOf (d : Dev) (i : Nat) : Dev × List Word × Bool :=
  let (d, rs) := d.readRun 4 (d.trailerBase i + 19) 37
  (d, rs.map Decoded.data, rs.any fun r => r.out == .uncorrectable)

/-- A slot takes its state after a start, in its state word where that changes (R354, R357). -/
def Dev.startSlot (d : Dev) (i : Nat) : Dev :=
  let old := d.slotRec i
  let r := old.afterStart d.sealedHold.rope
  let d := if r.stateWord = old.stateWord then d.modRecQuiet i fun _ => r else d.modRec i fun _ => r
  if r.cutShort ∧ ¬ old.cutShort then d.markCut i else d

/-- The end of FILL rebuilds the records (R357), the last signature (R361) and the seal queue; a record whose slot is LOCAL
is replicated again from the start (R414). The state of a MISMATCH record before the mismatch follows from its belays
(DEDUCED, log entry 103). -/
def Dev.rebuildRecords (d : Dev) : Dev :=
  let ids := List.range d.ks.slots
  let (d, found) := d.readSlots ids
  let d := { d with ks := { d.ks with recs := found } }
  let d := ids.foldl (fun d i => d.startSlot i) d
  let isRec : RecSlot → Bool := fun r => r.state.record
  let isSealed : RecSlot → Bool := fun r => r.state == .local' || r.state == .roped || r.state == .mismatch
  let top := d.topSlot isRec ids
  let (d, last) := match d.topSlot isSealed ids with
    | some i =>
      let (d, ws, _) := d.sigOf i
      (d, some ((d.slotRec i).seq, ws))
    | none => (d, none)
  let closed := (ids.filter fun i => (d.slotRec i).state == .closed).foldl (fun l i => d.bySeq i l) []
  let was : Nat → Nat × SlotState := fun i =>
    (i, if (d.slotRec i).allBelayed d.sealedHold.rope then .roped else .local')
  let before := (ids.filter fun i => (d.slotRec i).state == .mismatch).map was
  { d with ks := { d.ks with nextSeq := (top.map fun i => (d.slotRec i).seq + 1).getD 0,
                             lastHist := top.getD (d.ks.slots - 1), lastSig := last, before := before,
                             queue := closed.take 4, held := closed.drop 4, active := none, attests := [],
                             sealFree := 5 - min 4 closed.length, repair := none, recover := [] } }

end Sys2Proof.Machine
end

