-- ==== Sys2Proof/Machine/Packer.lean ====
section
/-!
DEFINITION. The packer: intake, staging, coding, the rolling ring, the freeze and post areas, descriptors and stalls
(chapter 13).
-/
namespace Sys2Proof.Machine
open Sys2Proof

/-- A packer channel. -/
def Dev.pkr (d : Dev) (c : Nat) : PkrChan := d.pk.chans.getD c {}

/-- Change a packer channel. -/
def Dev.modPkr (d : Dev) (c : Nat) (f : PkrChan → PkrChan) : Dev :=
  { d with pk := { d.pk with chans := d.pk.chans.modify c f } }

/-- The modes in which the packer runs (R349); in REPLAY it runs on the played inputs. -/
def Mode.packs : Mode → Bool
  | .run | .hold | .limp | .service | .replay => true
  | _ => false

/-- The channel of the image is enabled (R320). -/
def Dev.chanOn (d : Dev) (c : Nat) : Bool := decide (c < d.pk.nCh) && descOn (d.pkr c).desc

/-- An accepted write to an intake word sets its channel's fresh flag (R318). -/
def Dev.noteFresh (d : Dev) (a : Nat) : Dev :=
  if d.pk.intake ≤ a ∧ a < d.pk.intake + d.pk.nCh then d.modPkr (a - d.pk.intake) fun c => { c with fresh := true }
  else d

/-- A missing sample (R319). -/
def Dev.missSample (d : Dev) (c : Nat) : Dev :=
  (d.modPkr c fun x => { x with sample := some none, read := true, miss := satInc 14 x.miss }).fire 32

/-- INTAKE_READ is due (R20, R23, R319): the intake entry runs, the slot of the intake word's bank is the packer's, and every lower
enabled channel has been read. -/
def Dev.intakeDue (d : Dev) (c : Nat) : Bool :=
  d.taskNow .intake && d.mayUse 3 (bankOf (d.pk.intake + c)) && d.chanOn c && !(d.pkr c).read
    && (List.range c).all fun b => !d.chanOn b || (d.pkr b).read

/-- The intake read of a channel (R318, R319). -/
def Dev.intakeRead (d : Dev) (c : Nat) : Dev :=
  if d.intakeDue c then
    let d := d.useBank (bankOf (d.pk.intake + c))
    let fresh := (d.pkr c).fresh
    let (d, r) := d.readArr 3 (d.pk.intake + c)
    let d := d.modPkr c fun x => { x with fresh := false }
    if fresh ∧ r.out ≠ .uncorrectable then d.modPkr c fun x => { x with sample := some (some r.data), read := true }
    else d.missSample c
  else d

/-- The intake entry ends: channels not read are missing (R80). -/
def Dev.intakeRest (d : Dev) : Dev :=
  ((List.range d.pk.nCh).filter fun c => d.chanOn c && !(d.pkr c).read).foldl (fun d c => d.missSample c) d

/-- The intake entry ended with a channel not read. -/
def Dev.intakeOpen (d : Dev) : Bool := (List.range d.pk.nCh).any fun c => d.chanOn c && !(d.pkr c).read

/-! ### Areas -/

/-- Words of the ring (13_packer, Where blocks lie). -/
def Dev.ringWords (d : Dev) : Nat := 33 * blocksFor d.pk.pre

/-- The freeze area of a channel. -/
def Dev.freezeArea (d : Dev) (slot c : Nat) : Nat := d.chanBase slot c + d.ringWords

/-- The post area of a channel. -/
def Dev.postArea (d : Dev) (slot c : Nat) : Nat := d.freezeArea slot c + 33

/-- The channel area lies in a retired bank (R345). -/
def Dev.areaDead (d : Dev) (slot c : Nat) : Bool :=
  d.bankDead (d.chanBase slot c) || d.bankDead (d.chanBase slot c + d.areaWords - 1)

/-- Samples that a channel loses (R344, R347, R349). -/
def Dev.loseSamples (d : Dev) (c n : Nat) : Dev := d.modPkr c fun x => { x with lost := satInc 14 x.lost n }

/-- Write words into a channel's ring from its write pointer, circularly (R336). -/
def Dev.ringWrite (d : Dev) (base ring w : Nat) : List Word → Dev
  | [] => d
  | x :: xs => (d.writeArr (base + w % ring) x).ringWrite base ring (w + 1) xs

/-- Discard the oldest blocks while fewer than `need` words are free, reading each (R336); an uncorrectable word cuts the
ring (R338). -/
def Dev.discardGo (d : Dev) (c base ring need : Nat) : Nat → Dev
  | 0 => d
  | fuel + 1 =>
    let x := d.pkr c
    match x.blocks with
    | [] => d
    | b :: bs =>
      if need + x.blocks.sum ≤ ring then d
      else
        let (d, rs) := (List.range b).foldl (fun (q : Dev × List Decoded) i =>
          let (e, r) := q.1.readArr 3 (base + (x.o + i) % ring)
          (e, r :: q.2)) (d, [])
        if rs.any fun r => r.out == .uncorrectable then
          d.modPkr c fun y => { y with o := y.w, blocks := [], ringcut := satInc 14 y.ringcut x.blocks.length }
        else (d.modPkr c fun y => { y with o := (y.o + b) % ring, blocks := bs }).discardGo c base ring need fuel

/-- Write a block into the ring, and the end marker where a word is free (R336). -/
def Dev.ringBlock (d : Dev) (slot c : Nat) (ws : List Word) : Dev :=
  let base := d.chanBase slot c
  let ring := d.ringWords
  let d := d.discardGo c base ring ws.length ring
  let d := d.ringWrite base ring (d.pkr c).w ws
  let d := d.modPkr c fun x => { x with w := (x.w + ws.length) % ring, blocks := x.blocks ++ [ws.length] }
  if (d.pkr c).blocks.sum < ring then d.writeArr (base + (d.pkr c).w) 0x003C#14 else d

/-- PKR_FRZLEN, and header word 8 with it (R340, R358). -/
def Dev.freezeLen (d : Dev) (len : Nat) : Dev :=
  let d := { d with pk := { d.pk with frzLen := len % 32, wordDue := false } }
  match d.openRec with
  | some i => d.writeArr (d.slotBase i + 8) (d.headerWord8 (d.slotRec i).extra)
  | none => d

/-- The pointer word of the freeze area, and the freeze block length (R340). -/
def Dev.freezeClose (d : Dev) (slot c len : Nat) : Dev :=
  ((d.writeArr (d.freezeArea slot c) (wd (d.pkr c).o)).modPkr c fun x => { x with freezeDue := false }).freezeLen len

/-- A block of `n` samples goes to its place (R336, R340, R341). -/
def Dev.placeBlock (d : Dev) (slot c n : Nat) (p : BlockPlace) (ws : List Word) : Dev :=
  match p with
  | .ring => d.ringBlock slot c ws
  | .freeze => (d.writeRun (d.freezeArea slot c + 1) ws).freezeClose slot c n
  | .post =>
    let d := d.writeRun (d.postArea slot c + (d.pkr c).postUsed) ws
    d.modPkr c fun x => { x with postUsed := x.postUsed + ws.length }

/-- Read the stage words of a block's present samples; stop at the first uncorrectable one (R335, R345). The answer holds
the samples before it and tells whether all were read. -/
def Dev.readStage (d : Dev) (stage : Nat) (missing : List Nat) : Nat → Nat → Dev × List (Option Word) × Bool
  | _, 0 => (d, [], true)
  | i, n + 1 =>
    if missing.contains i then
      let (d, xs, ok) := d.readStage stage missing (i + 1) n
      (d, none :: xs, ok)
    else
      let (d, r) := d.readArr 3 (stage + i)
      if r.out = .uncorrectable then (d, [], false)
      else
        let (d, xs, ok) := d.readStage stage missing (i + 1) n
        (d, some r.data :: xs, ok)

/-- A block closes (R328, R344 to R347). A block of the ring whose last sample is the freeze tick's closes the freeze with it
(R340). -/
def Dev.closeBlock (d : Dev) (slot c n stage : Nat) (p : BlockPlace) (last : Bool) : Dev :=
  let x := d.pkr c
  let d := d.modPkr c fun y => { y with staged := 0, missing := [], discard := false }
  if x.discard then
    let d := d.loseSamples c n
    if last then d.freezeClose slot c 0 else d
  else if d.areaDead slot c then (d.modPkr c fun y => { y with stalled := true }).loseSamples c n
  else
    let (d, xs, ok) := d.readStage stage x.missing 0 n
    if ok then
      let d := d.placeBlock slot c n p (blockWords (codeBlock x.blockDesc xs))
      if last then d.freezeClose slot c 0 else d
    else
      let t : TruncDue := { tick := d.ck.tick, n := n, kept := xs.length, missing := x.missing, stage := stage, place := p,
                            desc := x.blockDesc, last := last }
      d.modPkr c fun y => { y with stalled := true, truncDue := some t }

/-- A TRUNC block is due in a tick after the one of its stall (R347). -/
def PkrChan.truncNow (x : PkrChan) (tick : Nat) : Bool :=
  match x.truncDue with
  | some t => t.tick != tick
  | none => false

/-- Step 1 of R335: a TRUNC block that is due (R347). -/
def Dev.truncStep (d : Dev) (slot c : Nat) : Dev :=
  match (d.pkr c).truncDue.filter fun t => t.tick != d.ck.tick with
  | none => d
  | some t =>
    let (d, xs, _) := d.readStage t.stage t.missing 0 t.kept
    let lost := t.n - xs.length
    let d := d.modPkr c fun y => { y with truncDue := none, trunc := satInc 14 y.trunc, lost := satInc 14 y.lost lost }
    let d := (d.placeBlock slot c t.n t.place (blockWords (truncBits t.desc t.n xs))).fire 33
    if t.last then d.freezeClose slot c 0 else d

/-- Step 2 of R335: stage the sample of the previous tick; the first of a block fixes its descriptor (R321). A position that no
sample has reached is missing. -/
def Dev.stageSample (d : Dev) (c stage i : Nat) (v : Option Word) : Dev :=
  let d := d.modPkr c fun x =>
    { x with staged := i + 1, missing := x.missing ++ (List.range i).drop x.staged ++ (if v.isNone then [i] else []),
             blockDesc := if i = 0 then x.desc else x.blockDesc }
  match v with
  | some w => d.writeArr (stage + i) w
  | none => d

/-- A rolling sample of tick `s` (R322, R340). -/
def Dev.codeRolling (d : Dev) (slot c t0 s : Nat) (v : Option Word) : Dev :=
  let i := (s - t0) % 32
  let stage := d.freezeArea slot c + 1
  let d := d.stageSample c stage i v
  let last := decide (d.pk.frz = some s)
  if i = 31 then d.closeBlock slot c 32 stage .ring last
  else if last then d.closeBlock slot c (i + 1) stage .freeze false
  else d

/-- A post-event sample, number `p` after the freeze tick (R341). -/
def Dev.codePost (d : Dev) (slot c p : Nat) (v : Option Word) : Dev :=
  if d.pk.post ≤ p then d
  else
    let n := min 32 (d.pk.post - 32 * (p / 32))
    let stage := d.postArea slot c + (d.pkr c).postUsed
    let d := d.stageSample c stage (p % 32) v
    if p % 32 + 1 = n then d.closeBlock slot c n stage .post false else d

/-- The staging of a channel's sample of the previous tick, and the block it closes (R335, R339 to R341). -/
def Dev.codeSample (d : Dev) (slot c t0 : Nat) (v : Option Word) : Dev :=
  let s := d.ck.tick - 1
  match d.pk.frz with
  | none => if t0 ≤ s then d.codeRolling slot c t0 s v else d
  | some t => if s ≤ t then (if t0 ≤ s then d.codeRolling slot c t0 s v else d) else d.codePost slot c (s - t - 1) v

/-- The ticks of a history up to its freeze tick, and its slot, once the freeze tick is over. -/
def Dev.frozen (d : Dev) : Option (Nat × Nat) :=
  match d.pk.frz, d.pk.hist with
  | some t, some (t0, slot) => if t < d.ck.tick then some (t - t0 + 1, slot) else none
  | _, _ => none

/-- A channel that has no sample of the freeze tick, and no TRUNC block due, has its pointer word to write (R340). -/
def Dev.pointerDue (d : Dev) (c : Nat) : Bool :=
  let x := d.pkr c
  x.freezeDue && x.truncDue.isNone && (x.sample.isNone || x.read) && d.frozen.isSome

/-- A channel has coding work in the running tick: a sample of the tick before, a TRUNC block that is due, or its pointer word. -/
def Dev.codeWork (d : Dev) (c : Nat) : Bool :=
  let x := d.pkr c
  !x.coded && ((x.sample.isSome && !x.read) || x.truncNow d.ck.tick || d.pointerDue c)

/-- The coding of one channel, once in a tick (R25, R335): the TRUNC block due, the sample of the previous tick, the block it
closes. -/
def Dev.codeChan (d : Dev) (c : Nat) : Dev :=
  let x := d.pkr c
  let v := if x.read then none else x.sample
  let d := d.modPkr c fun y => { y with coded := true, sample := if y.read then y.sample else none }
  match d.pk.hist with
  | none => d
  | some (t0, slot) =>
    let d := d.truncStep slot c
    match v with
    | some v => d.codeSample slot c t0 v
    | none => if d.pointerDue c && !d.areaDead slot c then d.freezeClose slot c ((d.frozen.map Prod.fst).getD 0) else d

/-- The bank of a channel's area in the history's slot; without a history nothing is accessed. -/
def Dev.codeBank (d : Dev) (c : Nat) : Option Nat := d.pk.hist.map fun x => bankOf (d.chanBase x.2 c)

/-- PACKER_CODING is due (R20, R25, R335): a coding entry runs, the slot of the bank is the packer's, the channel has work, and no
lower channel has. -/
def Dev.codingDue (d : Dev) (c : Nat) : Bool :=
  d.taskNow .coding && d.codeWork c && !((List.range c).any fun b => d.codeWork b)
    && (match d.codeBank c with
      | some b => d.mayUse 3 b
      | none => true)

/-- One channel's work in a coding entry. -/
def Dev.codeStep (d : Dev) (c : Nat) : Dev :=
  if d.codingDue c then
    (match d.codeBank c with
      | some b => d.useBank b
      | none => d).codeChan c
  else d

/-- Coding work is left in this tick: a channel not coded, or a stall (R80, R346). -/
def Dev.codingOpen (d : Dev) : Bool :=
  d.pk.hist.isSome && (List.range d.pk.nCh).any fun c => d.codeWork c || (d.pkr c).stalled

/-- The coding entry of a tick after the freeze has ended: word 8 stands even where no channel has closed its freeze (R358). -/
def Dev.wordEight (d : Dev) : Dev :=
  match d.frozen with
  | some (n, _) => if d.pk.wordDue && !(d.pk.chans.any fun x => x.truncDue.isSome) then d.freezeLen n else d
  | none => d

/-! ### Histories (R322, R334, R339, R349) -/

/-- A history begins (R334, R355): its slot is taken, each channel's ring is empty; none begins while no slot qualifies. -/
def Dev.beginHistory (d : Dev) : Dev :=
  let clear : PkrChan → PkrChan := fun x =>
    { x with sample := none, staged := 0, missing := [], o := 0, w := 0, blocks := [], discard := false,
             truncDue := none, postUsed := 0, freezeDue := false }
  let d := { d with pk := { d.pk with chans := d.pk.chans.map clear, frz := none, recOpen := false, wordDue := false } }
  match (if d.pk.nCh = 0 then none else d.nextSlot) with
  | some i =>
    let d := d.takeSlot i
    let d := { d with pk := { d.pk with hist := some (d.ck.tick, i), due := false, state := 1 } }
    (List.range d.pk.nCh).foldl (fun d c => d.writeArr (d.chanBase i c) 0x003C#14) d
  | none => { d with pk := { d.pk with hist := none, due := true, state := 0 } }

/-- The history ends; the samples of every unfinished block are lost, and they count at entry to RETAIN (R349), not where
capture stops under R342. -/
def Dev.endHistory (d : Dev) (counts : Bool) : Dev :=
  let lose : PkrChan → PkrChan := fun x =>
    let n := x.staged + b2n x.sample.isSome + ((x.truncDue.map TruncDue.n).getD 0)
    { x with lost := if counts then satInc 14 x.lost n else x.lost, staged := 0, missing := [], sample := none, truncDue := none, blocks := [],
             discard := false, freezeDue := false }
  let chans := if d.pk.hist.isSome then d.pk.chans.map lose else d.pk.chans.map fun x => { x with sample := none }
  { d with pk := { d.pk with chans := chans, hist := none, frz := none, recOpen := false, wordDue := false,
                             due := false, state := 0, fixAt := none } }

/-- A freeze is taken at a check point (R28, R339, R356, R357, R475): `trig` is the header's trigger field. Its action ends, and the
boundary is fixed, 5 slots later (R27, R82). -/
def Dev.fixBoundary (d : Dev) (trig : Nat) : Dev :=
  let chans := d.pk.chans.map fun x => { x with freezeDue := true }
  let d := { d with pk := { d.pk with frz := some d.ck.tick, wordDue := true, fixAt := some (d.now + 5), chans := chans } }
  let d := match d.pk.hist.filter fun _ => d.seqLeft with
    | some (_, i) =>
      let seq := d.ks.nextSeq
      let d := d.openRecord i trig
      { d with pk := { d.pk with recOpen := true, state := 2 }, lb := { d.lb with frzRec := some seq } }
    | none =>
      { d with pk := { d.pk with hist := none, recOpen := false, state := 0 }, lb := { d.lb with frzRec := some 0xFFFFFFF },
               ks := { d.ks with noSlot := satInc 14 d.ks.noSlot } }
  d.fire 31

/-- The tick at whose first check point the device returns to RUN (R29, R356), where no block stalls. -/
def Dev.returnTick (d : Dev) : Option Nat := d.pk.frz.map fun t => t + d.pk.post + 2

/-- The capture is over at the boundary of the running tick (R29): the last post-event block has closed in the tick before, which is a
tick later where it stalled and closes as TRUNC (R347). -/
def Dev.captureOver (d : Dev) : Bool :=
  match d.returnTick with
  | some t => (decide (t ≤ d.ck.tick) && !(d.pk.chans.any fun x => x.truncDue.isSome)) || decide (t < d.ck.tick)
  | none => false

/-! ### Descriptors (R343, R344) -/

/-- Take an armed channel's pending descriptor (R343, R344). -/
def Dev.takeDesc (d : Dev) (c : Nat) : Dev :=
  let x := d.pkr c
  if !x.arm then d
  else
    let differs := decide (x.desc % 32 ≠ x.next % 32)
    let live := decide (0 < x.staged) || x.sample.isSome
    let d := d.modPkr c fun y => { y with desc := y.next, arm := false }
    match d.pk.hist with
    | some (_, slot) =>
      if differs then
        let d := d.modPkr c fun y => { y with o := y.w, blocks := [], discard := live }
        d.writeArr (d.chanBase slot c + (d.pkr c).w) 0x003C#14
      else d
    | none => d

/-- Step 3 of R22: at a block start in RUN each armed channel takes its descriptor. -/
def Dev.blockStart (d : Dev) : Dev :=
  match d.pk.hist with
  | some (t0, _) =>
    if d.pk.frz.isNone ∧ (d.ck.tick - t0) % 32 = 0 then
      (List.range d.pk.nCh).foldl (fun d c => d.takeDesc c) d
    else d
  | none => d

/-- A party that the packer section authorises, or the pilot (R343). -/
def Dev.mayArm (d : Dev) (y : Party) : Bool :=
  match y with
  | .portA => d.pk.descA
  | .portB => d.pk.descB
  | .pilot => true

/-- A write of PKR_NEXT (R343). -/
def Dev.nextWrite (d : Dev) (y : Party) (c : Nat) (v : Word) : Dev :=
  if d.mayArm y then d.modPkr c fun x => { x with next := v.toNat % 64 } else d

/-- A write of PKR_ARM (R343): W1S. -/
def Dev.armWrite (d : Dev) (y : Party) (c : Nat) (v : Word) : Dev :=
  if d.mayArm y ∧ bit v.toNat 0 then d.modPkr c fun x => { x with arm := true } else d

end Sys2Proof.Machine
end

