-- ==== Sys2Proof/Machine/Holds.lean ====
section
/-!
DEFINITION. The rules by which a port's write to the data array is accepted or refused, collisions, the merge buffers, and
the pilot's writes to holds (chapters 02, 07, 08, 09).
-/
namespace Sys2Proof.Machine
open Sys2Proof

/-! ### Accepting and refusing (R44 to R50, R177, R216, R225, R237) -/

/-- What becomes of a port's write of a data-array word. -/
inductive Verdict where
  | accept
  /-- refused for the reserve (R39) -/
  | reserve
  /-- refused for writers or policy (R44, R45) -/
  | policy (hold : Nat)
  /-- refused for the store budget (R225) -/
  | budget
  /-- refused during STORE (R237) -/
  | store
  /-- refused in LIMP or in a retired bank (R177, R216) -/
  | quiet
  deriving DecidableEq, Repr

/-- The port is a writer of the hold (R42). -/
def Hold.writer (h : Hold) : Port → Bool
  | .a => h.writeA
  | .b => h.writeB

/-- The policy accepts a write of a word (R47, the write-policy table); a lone half passes in a free hold only (R48). -/
def Dev.policyOk (d : Dev) (h : Hold) (a : Nat) (lone : Bool) : Bool :=
  match h.policy with
  | .free => true
  | .append => !lone && decide (a = 1024 * h.base + h.append) && decide (h.append < 1024 * h.pages)
  | .vault => !lone && !d.ar.written.contains a
  | .tally => false

/-- The verdict on a port's write of a word of the data array. -/
def Dev.judge (d : Dev) (p : Port) (a : Nat) (lone : Bool) : Verdict :=
  if 0x1E0000 ≤ a then .reserve
  else if d.pw.mode = .limp ∨ d.bankDead a then .quiet
  else if d.pw.mode = .store ∧ d.persistent a then .store
  else match d.holdOf (pageOf a) with
    | some n =>
      if !(d.hold n).writer p || !d.policyOk (d.hold n) a lone then .policy n
      else if d.budgetRefuses a then .budget else .accept
    | none => .accept

/-- Set wr_code (R176). -/
def Dev.wrCode (d : Dev) (p : Port) (c : Nat) : Dev := d.modPort p fun x => { x with wrCode := c }

/-- The effects of a refusal (R39, R44, R45, R46, R176, R237). -/
def Dev.refuse (d : Dev) (p : Port) (v : Verdict) : Dev :=
  match v with
  | .accept => d
  | .reserve => d.lockViol.wrCode p 3
  | .policy n =>
    let d := { d with ar := { d.ar with holds := d.ar.holds.modify n fun h => { h with refused := satInc 14 h.refused } } }
    d.lockViol.wrCode p 3
  | .budget => ({ d with kl := { d.kl with refused := satInc 14 d.kl.refused } }.fire 21).wrCode p 3
  | .store => { d with kl := { d.kl with storeRef := satInc 14 d.kl.storeRef } }.wrCode p 3
  | .quiet => d.wrCode p 3

/-- An accepted write at the append pointer advances it; HOLD_FULL fires when it reaches the end (R47, R50). -/
def Dev.advanceAppend (d : Dev) (a : Nat) : Dev :=
  match d.holdOf (pageOf a) with
  | some n =>
    let h := d.hold n
    if h.policy = .append ∧ a = 1024 * h.base + h.append ∧ h.append < 1024 * h.pages then
      let d := { d with ar := { d.ar with holds := d.ar.holds.modify n fun h => { h with append := h.append + 1 } } }
      if h.append + 1 = 1024 * h.pages then d.fire 25 else d
    else d
  | none => d

/-- A first write sets the written state of a vault word (R47, R51). -/
def Dev.setWritten (d : Dev) (a : Nat) : Dev :=
  match d.holdOf (pageOf a) with
  | some n =>
    if (d.hold n).policy = .vault then { d with ar := { d.ar with written := setInsert a d.ar.written } } else d
  | none => d

/-- An accepted write with what follows from it: the pointer, the written state, the intake's fresh flag (R47, R318). -/
def Dev.holdWrite (d : Dev) (a : Nat) (w : Word) : Dev :=
  if d.writeHeld a then d else (((d.writeArr a w).advanceAppend a).setWritten a).noteFresh a

/-- The pilot writes consecutive words (R281). -/
def Dev.pilotRun (d : Dev) (a : Nat) : List Word → Dev
  | [] => d
  | w :: ws => (d.holdWrite a w).pilotRun (a + 1) ws

/-! ### Collisions (R178 to R182) -/

/-- The event of a port's collisions. -/
def collEvent : Port → Nat
  | .a => 2
  | .b => 3

/-- A touch of a port counts as a collision (R182). -/
def Dev.countColl (d : Dev) (p : Port) : Dev :=
  (d.modPort p fun x => { x with coll := satInc 14 x.coll }).fire (collEvent p)

/-- The code of a word that collided (R170, R181). -/
def collide (code : Nat) : Nat := if code = 3 then 3 else 2

/-- Two touches of different ports collide (R179). -/
def Touch.clash (t u : Touch) : Bool :=
  t.addr == u.addr && (t.write || u.write) && decide (t.slot ≤ u.slot + 63) && decide (u.slot ≤ t.slot + 63)

/-- Change the touches of a port that are the one given. -/
def Dev.modTouch (d : Dev) (p : Port) (t : Touch) (f : Touch → Touch) : Dev :=
  d.modPort p fun x => { x with touches := x.touches.map fun u =>
    if u.addr = t.addr ∧ u.slot = t.slot ∧ u.write = t.write then f u else u }

/-- A touch of a port counts, once (R182). -/
def Dev.hitTouch (d : Dev) (p : Port) (t : Touch) : Dev :=
  if t.hit then d else (d.countColl p).modTouch p t fun u => { u with hit := true }

/-- A touch has become real: it and the real touches of the other port that collide with it are counted (R179, R182). -/
def Dev.countTouch (d : Dev) (p : Port) (t : Touch) : Dev :=
  let hits := (d.port p.other).touches.filter fun u => u.real && t.clash u
  if hits.isEmpty then d else (hits.foldl (fun d u => d.hitTouch p.other u) d).hitTouch p t

/-- No touch is kept that no later one can collide with: an undriven read keeps those that it may meet. -/
def Dev.ageTouches (d : Dev) : Dev :=
  if (d.pa.touches ++ d.pb.touches).all Touch.real then
    let near : PortSt → PortSt := fun x => { x with touches := x.touches.filter fun t => decide (d.now ≤ t.slot + 63) }
    (d.modPort .a near).modPort .b near
  else d

/-- A touch of a port takes place now (R178, R179): a write or a commit is real at once, a read of a burst once its first byte is
driven, when it is counted (DESIGN CHOICE, log entry 89). The reads of the other port that it collides with carry code 10
(R181). The answer tells whether it collides. -/
def Dev.touch (d : Dev) (p : Port) (a : Nat) (write real : Bool) : Dev × Bool :=
  let d := d.ageTouches
  let t : Touch := { addr := a, slot := d.now, write := write, real := real, hit := false }
  let hits := (d.port p.other).touches.filter t.clash
  let met : Driven → Driven := fun v =>
    if hits.any fun u => !u.write && !u.real && v.addr == u.addr && v.slot == u.slot then
      { v with code := Machine.collide v.code } else v
  let d := (d.modPort p.other fun x => { x with driven := x.driven.map met }).modPort p fun x =>
    { x with touches := x.touches ++ [t] }
  (if real then d.countTouch p t else d, !hits.isEmpty)

/-- The first byte of a word has been driven: its read is a touch (R178). -/
def Dev.driveTouch (d : Dev) (p : Port) (v : Driven) : Dev :=
  match (d.port p).touches.find? fun t => !t.real && t.addr == v.addr && t.slot == v.slot with
  | some t => (d.modTouch p t fun u => { u with real := true }).countTouch p { t with real := true }
  | none => d

/-! ### Writes of a port (R174 to R176) -/

/-- An accepted full word or merged word of a port: the write is a touch (R176, R178). -/
def Dev.portStore (d : Dev) (p : Port) (a : Nat) (w : Word) : Dev :=
  let (d, hit) := (d.holdWrite a w).touch p a true true
  d.wrCode p (if hit then 2 else 0)

/-- A word of the data array arrives at its write slot (R175, R176). -/
def Dev.portWrite (d : Dev) (p : Port) (a : Nat) (w : Word) (lone : Bool) : Dev :=
  match d.judge p a lone with
  | .accept => d.portStore p a w
  | v => d.refuse p v

/-! ### The merge buffers (R194 to R199) -/

/-- Put the halves of an entry in their places. -/
def putHalves (lo hi : Option (BitVec 7)) (w : Word) : Word :=
  Word.ofHalves (lo.getD w.low) (hi.getD w.high)

/-- An entry leaves the buffer and returns its unit (R100). -/
def PortSt.dropEntry (x : PortSt) (a : Nat) : PortSt :=
  if x.merge.any fun e => e.addr == a then
    { x with merge := x.merge.filter fun e => e.addr != a, mergeFree := x.mergeFree + 1 }
  else x

/-- A full-word write discards the port's pending halves for the word (R174). -/
def PortSt.dropHalves (x : PortSt) (a : Nat) : PortSt :=
  { x.dropEntry a with rmw := x.rmw.filter fun r => r.addr != a }

/-- The port's pending halves put in their places, the most recently written last (R174). -/
def PortSt.overlay (x : PortSt) (a : Nat) (w : Word) : Word :=
  let w := (x.rmw.filter fun r => r.addr == a).foldl (fun w r => putHalves r.lo r.hi w) w
  (x.merge.filter fun e => e.addr == a).foldl (fun w e => putHalves e.lo e.hi w) w

/-- An entry that commits with one half, and has left the buffer (R196, R197): it waits from a slot on for its
read-modify-write, or is discarded. The store budget and the other rules of `judge` refuse it here, without a read, and again
in its write slot (DESIGN CHOICE, log entry 90). -/
def Dev.loneCommit (d : Dev) (p : Port) (e : MergeEntry) (stage : Bool) (since : Nat) : Dev :=
  match d.judge p e.addr true with
  | .accept =>
    d.modPort p fun x => { x with rmw := x.rmw ++ [{ addr := e.addr, lo := e.lo, hi := e.hi, base := none, stage := stage,
                                                     since := since }] }
  | v => d.refuse p v

/-- The entry holds one half. -/
def MergeEntry.lone (e : MergeEntry) : Bool := !(e.lo.isSome && e.hi.isSome)

/-- The lone entry that opened earliest, the lowest index first of equals (R197). An entry with both halves waits for its own
commit (R195) and is not evicted. -/
def oldestEntry : List MergeEntry → Option MergeEntry
  | [] => none
  | e :: es =>
    match oldestEntry es with
    | some f => if f.tick < e.tick || !e.lone then some f else some e
    | none => if e.lone then some e else none

/-- The books of the merge entries (R462). -/
def mergeBook : Port → Nat
  | .a => 14
  | .b => 15

/-- A half opens an entry (R194). -/
def Dev.openEntry (d : Dev) (p : Port) (a : Nat) (lo hi : Option (BitVec 7)) : Dev :=
  (d.modPort p fun x => { x with merge := x.merge ++ [{ addr := a, lo := lo, hi := hi, tick := d.ck.tick }],
                                 mergeFree := x.mergeFree - 1 }).wrCode p 0

/-- A half is refused at a full commit stage (R197). -/
def Dev.refuseHalf (d : Dev) (p : Port) : Dev :=
  ((d.stall (mergeBook p)).modPort p fun x => { x with mRefuse := satInc 14 x.mRefuse }).wrCode p 3

/-- A half that finds all 8 entries open (R197). -/
def Dev.evictFor (d : Dev) (p : Port) (a : Nat) (lo hi : Option (BitVec 7)) : Dev :=
  match (d.port p).rmw.any Rmw.stage, oldestEntry (d.port p).merge with
  | false, some e =>
    let d := d.modPort p fun x => { x.dropEntry e.addr with mEvict := satInc 14 x.mEvict }
    (d.loneCommit p e true (d.now + 1)).openEntry p a lo hi
  | _, _ => d.refuseHalf p

/-- A lone half arrives (R173, R194, R195). The answer tells whether it completed an entry. -/
def Dev.takeHalf (d : Dev) (p : Port) (a : Nat) (lo hi : Option (BitVec 7)) : Dev × Bool :=
  if 0x1F0000 ≤ a then (d, false)
  else if 0x1E0000 ≤ a then (d.refuse p .reserve, false)
  else if d.pw.mode = .limp then (d.refuse p .quiet, false)
  else if d.pw.mode = .store ∧ d.persistent a then (d.refuse p .store, false)
  else match (d.port p).merge.find? fun e => e.addr == a with
    | some e =>
      let f : MergeEntry := { e with lo := lo.or e.lo, hi := hi.or e.hi }
      let d := (d.modPort p fun x => { x with merge := x.merge.map fun g => if g.addr = a then f else g }).wrCode p 0
      (d, !f.lone && e.lone)
    | none =>
      if (d.port p).merge.length < 8 then (d.openEntry p a lo hi, false) else (d.evictFor p a lo hi, false)

/-- A complete entry commits as one full word (R195). -/
def Dev.mergeCommit (d : Dev) (p : Port) (a : Nat) : Dev :=
  match (d.port p).merge.find? fun e => e.addr == a && !e.lone with
  | some e => (d.modPort p fun x => x.dropEntry a).portWrite p a (putHalves e.lo e.hi 0#14) false
  | none => d

/-- An entry that ages out (R196): a lone one leaves the buffer. -/
def Dev.ageOne (d : Dev) (p : Port) (e : MergeEntry) : Dev :=
  if e.lone then (d.modPort p fun x => x.dropEntry e.addr).loneCommit p e false d.now else d

/-- The entries that opened two ticks before the tick that begins age out (R196). -/
def Dev.ageOut (d : Dev) (p : Port) : Dev :=
  ((d.port p).merge.filter fun e => decide (e.tick + 2 ≤ d.ck.tick)).foldl (fun d e => d.ageOne p e) d

/-- Every open entry of the port ages out at once (R199). -/
def Dev.ageAll (d : Dev) (p : Port) : Dev := (d.port p).merge.foldl (fun d e => d.ageOne p e) d

/-- A read-modify-write abandoned on an uncorrectable read (R198). -/
def Dev.abandonRmw (d : Dev) (p : Port) (a : Nat) (r : Decoded) : Dev :=
  let d := (d.modPort p fun x => { x with mAband := satInc 14 x.mAband }).wrCode p 3
  (d.logErr a (portCode p) .mergeAbandoned r.syndrome r.parity r.locus).fire 18

/-- The read of a lone-half commit, a touch (R198). -/
def Dev.rmwRead (d : Dev) (p : Port) (m : Rmw) : Dev :=
  let (d, r) := d.readArr (portCode p) m.addr
  let d := (d.touch p m.addr false true).1
  if r.out = .uncorrectable then (d.modPort p fun x => { x with rmw := x.rmw.erase m }).abandonRmw p m.addr r
  else d.modPort p fun x => { x with rmw := x.rmw.replace m { m with base := some r.data } }

/-- One slot of a lone-half commit (R198): its read, then its write. -/
def Dev.rmwRun (d : Dev) (p : Port) (m : Rmw) : Dev :=
  match m.base with
  | none => d.rmwRead p m
  | some w =>
    (d.modPort p fun x => { x with rmw := x.rmw.erase m }).portWrite p m.addr (putHalves m.lo m.hi w) true

/-- A received word of the port is to be written in this slot of a bank (R175). -/
def Dev.wordDue (d : Dev) (p : Port) (bank : Nat) : Bool :=
  (d.port p).wq.any fun i => bankOf i.addr == bank && decide (i.arrived + 3 ≤ d.now)

/-- The received word whose slot this is (R175, R195): its bank's slot is the port's and free, and begins at least 3 slots after the
word's last byte. -/
def Dev.dueItem (d : Dev) (p : Port) : Option WriteItem :=
  (d.port p).wq.find? fun i => d.mayUse (portCode p) (bankOf i.addr) && decide (i.arrived + 3 ≤ d.now)

/-- A word that waited takes its slot. -/
def Dev.takeItem (d : Dev) (p : Port) (i : WriteItem) : Dev :=
  (d.useBank (bankOf i.addr)).modPort p fun x => { x with wq := x.wq.erase i }

/-- A lone-half commit may use the running slot (R198): the port's own in the word's bank, taken by no transfer word. -/
def Dev.rmwDue (d : Dev) (p : Port) (m : Rmw) : Bool :=
  decide (m.since ≤ d.now) && d.mayUse (portCode p) (bankOf m.addr) && !d.wordDue p (bankOf m.addr)

/-- The first lone-half commit whose bank's slot has come (R198). -/
def Dev.rmwStep (d : Dev) (p : Port) : Dev :=
  match (d.port p).rmw.find? fun m => d.rmwDue p m with
  | some m => (d.useBank (bankOf m.addr)).rmwRun p m
  | none => d

/-- Lone-half commits run to their end, outside any timetable (R199). -/
def Dev.rmwAll (d : Dev) (p : Port) : Nat → Dev
  | 0 => d
  | n + 1 =>
    match (d.port p).rmw with
    | m :: _ => (d.rmwRun p m).rmwAll p n
    | [] => d

/-! ### The pilot's writes -/

/-- The pilot writes an array word of a hold or of the open array (R47). -/
def Dev.pilotHoldWrite (d : Dev) (a : Nat) (w : Word) : Dev := if a < 0x1E0000 then d.holdWrite a w else d

/-- An append pointer may take a value (R50). -/
def Dev.appendOk (d : Dev) (n v : Nat) : Bool :=
  ((d.hold n).policy == .append) && decide (v ≤ 1024 * (d.hold n).pages)

/-- The pilot writes an append pointer (R50). -/
def Dev.appendWrite (d : Dev) (n v : Nat) : Dev :=
  let h := d.hold n
  let size := 1024 * h.pages
  if !d.appendOk n v then d
  else
    let d := { d with ar := { d.ar with holds := d.ar.holds.modify n fun h => { h with append := v } } }
    if v = size ∧ h.append ≠ size then d.fire 25 else d

end Sys2Proof.Machine
end

