-- ==== Sys2Proof/Machine/Events.lean ====
section
/-!
DEFINITION. The event controller's accesses and its engine: claims, completions, pending writes, masks, queue indices and
the writing of records (chapter 12).
-/
namespace Sys2Proof.Machine
open Sys2Proof

/-- The bit of a party in a target mask (R315). -/
def Party.bit : Party → Nat
  | .portA => 0
  | .portB => 1
  | .pilot => 2

/-- Change a source. -/
def Dev.modSrc (d : Dev) (n : Nat) (f : Source → Source) : Dev :=
  { d with ev := { d.ev with srcs := d.ev.srcs.modify n f } }

/-- A source. -/
def Dev.src (d : Dev) (n : Nat) : Source := d.ev.srcs.getD n {}

/-- A read of EVC_CLAIMn (R306). -/
def Dev.claim (d : Dev) (y : Party) (n : Nat) : Dev × Word :=
  let s := d.src n
  if bit s.targets (Party.bit y) && s.pend && !s.active then
    (d.modSrc n fun s => { s with active := true, owner := some y, pend := false }, wd n)
  else ({ d with ev := { d.ev with spur := satInc 14 d.ev.spur } }, 0x3FFF#14)

/-- A source is completed; where it is pending and unmasked it becomes postable (R298, R307). -/
def Dev.completeSrc (d : Dev) (n : Nat) : Dev :=
  let d := d.modSrc n fun s => { s with active := false, owner := none }
  let s := d.src n
  if s.pend && !s.mask then d.post n else d

/-- A write of EVC_COMPLETE (R307). -/
def Dev.complete (d : Dev) (y : Party) (v : Word) : Dev :=
  let n := v.toNat
  let s := d.src n
  if n < 55 ∧ s.active = true ∧ s.owner = some y then d.completeSrc n
  else { d with ev := { d.ev with badComp := satInc 14 d.ev.badComp } }

/-- A write of one pending bit (R310). -/
def Dev.pendBit (d : Dev) (n : Nat) (b : Bool) : Dev :=
  let s := d.src n
  let d := d.modSrc n fun s => { s with pend := b }
  if b && !s.pend && !s.mask && !s.active then d.post n else d

/-- The sources of a bit register word (R317). -/
def wordSources (w : Nat) : List Nat := (List.range 14).map (fun i => 14 * w + i) |>.filter fun n => decide (n < 64)

/-- A write of EVC_PEND (R310). -/
def Dev.pendWrite (d : Dev) (w : Nat) (v : Word) : Dev :=
  (wordSources w).foldl (fun d n => d.pendBit n (bit v.toNat (n % 14))) d

/-- A write of EVC_MASK sets the shadow (R309); a reserved source stays masked (R297). -/
def Dev.maskWrite (d : Dev) (w : Nat) (v : Word) : Dev :=
  (wordSources w).foldl (fun d n => d.modSrc n fun s => { s with maskSh := decide (55 ≤ n) || bit v.toNat (n % 14) }) d

/-- At a boundary the shadow masks take effect; a pending source whose mask clears becomes postable (R22, R298, R309). -/
def Dev.maskShadows (d : Dev) : Dev :=
  (List.range 64).foldl (fun d n =>
    let s := d.src n
    let d := d.modSrc n fun s => { s with mask := s.maskSh }
    if s.mask && !s.maskSh && s.pend && !s.active then d.post n else d) d

/-- The target writes EVC_QRD past read records (R302, R303); the bits above its ten are reserved (R16). -/
def Dev.qrdWrite (d : Dev) (y q : Party) (v : Word) : Dev :=
  let e := d.evq q
  let i := v.toNat % 1024
  let n := (i + 1024 - e.rd) % 1024
  if y = q ∧ n ≤ e.cnt then
    (d.modEvq q fun e => { e with rd := i, cnt := e.cnt - n, free := e.free + n }).updInt
  else d

/-- The first address of a target's queue (R302). -/
def queueBase : Party → Nat
  | .portA => 0x1F4000
  | .portB => 0x1F5000
  | .pilot => 0x1F6000

/-- The first record is out of the list of queued records. -/
def Dev.popRec (d : Dev) : Dev := { d with ev := { d.ev with recs := d.ev.recs.drop 1 } }

/-- One free slot of the engine: a word of the first queued record, in the order 1, 2, 3, 0, or its drop (R301, R305). -/
def Dev.recordStep (d : Dev) : Dev :=
  match d.ev.recs with
  | [] => d
  | r :: rs =>
    let q := d.evq r.target
    let base := queueBase r.target + 4 * q.wr
    if r.written = 0 ∧ 1024 ≤ q.cnt then
      d.popRec.modEvq r.target fun q => { q with seq := (q.seq + 1) % 256, ovf := satInc 14 q.ovf }
    else if r.written < 3 then
      let d := d.writeArr (base + r.written + 1) (wordOf r.tick r.written)
      { d with ev := { d.ev with recs := { r with written := r.written + 1 } :: rs } }
    else
      let d := d.popRec.writeArr base (wd (r.source + 64 * q.seq))
      let d := d.modEvq r.target fun q =>
        { q with wr := (q.wr + 1) % 1024, cnt := q.cnt + 1, seq := (q.seq + 1) % 256, free := q.free - 1 }
      (if r.target = .pilot then d.wakePilot else d).updInt

/-- The engine's slot is free for a record, and the first one became postable before it (R301). -/
def Dev.recordDue (d : Dev) : Bool :=
  d.engineSlot && d.nextExpiry.isNone &&
    (match d.ev.recs with
     | [] => false
     | r :: _ => decide (r.at' < d.now))

/-- A slot of the engine in bank 3 that R265 leaves free (R301). -/
def Dev.recordTurn (d : Dev) : Dev := if d.recordDue then (d.useBank 3).recordStep else d

/-- Every source a party owns is completed, without a count (R312). -/
def Dev.completeAll (d : Dev) (y : Party) : Dev :=
  (List.range 64).foldl (fun d n => if (d.src n).owner = some y then d.completeSrc n else d) d

end Sys2Proof.Machine
end

