-- ==== Sys2Proof/Machine/Load.lean ====
section
/-!
DEFINITION. What a start resets (R487, R490), what LOAD takes from an image (R90, R123), and the configuration CRC (R124).
-/
namespace Sys2Proof.Machine
open Sys2Proof

/-! ### Resets (R490) -/

/-- A port's counters at zero. -/
def PortSt.clearCounts (p : PortSt) : PortSt :=
  { p with coll := 0, badCmd := 0, prst := 0, mAband := 0, mEvict := 0, mRefuse := 0 }

/-- Entry to WAKE from OFF: every class C word, and the words whose chapters give their resets there: ECC, SCR and KEEL,
pilot, harness and LOG; the pilot's lock, the lifeboat frame, the LIMP cause and spent clear (R153, R291, R478, R490). -/
def Dev.coldStart (d : Dev) : Dev :=
  let chans := d.cm.chans.map fun c => { c with refused := 0, misuse := 0, timeouts := 0 }
  let pchans := d.pk.chans.map fun c => { c with miss := 0, trunc := 0, lost := 0, ringcut := 0 }
  { d with
    pw := { d.pw with limpCause := 0, wakeFails := 0 },
    ck := { d.ck with refMiss := 0, clamped := 0, overruns := 0 },
    pa := d.pa.clearCounts, pb := d.pb.clearCounts,
    ar := { mem := d.ar.mem, written := d.ar.written, holds := d.ar.holds.map fun h => { h with refused := 0 } },
    kl := { d.kl with refused := 0, overs := 0, storeRef := 0, poolWaits := 0, recallErr := 0, storeUs := 0,
                      lastCmt := 0, known := false },
    cm := { d.cm with badRel := 0, rstRel := 0, ringTo := 0, chans := chans },
    pl := {},
    ev := { d.ev with badComp := 0, spur := 0, srcs := d.ev.srcs.map fun x => { x with lost := 0 },
                      qA := { d.ev.qA with ovf := 0 }, qB := { d.ev.qB with ovf := 0 },
                      qP := { d.ev.qP with ovf := 0 } },
    pk := { d.pk with chans := pchans },
    ks := { d.ks with sealedCnt := 0, mismatch := 0, repaired := 0, noSlot := 0, overwritten := 0, guestRej := 0 },
    rg := { d.rg with retxUp := 0, retxDn := 0, retrains := 0, crcErr := 0, malform := 0, stalls := 0, dropHop := 0,
                      mkBad := 0, mkLate := 0, tickSet := 0, repRetry := 0, repRej := 0, semStale := 0, keepRx := 0,
                      beacons := 0 },
    hn := { d.hn with lockViol := 0, credStall := 0, credWho := 0, stalled := [], filtSh := 2, filt := 2, faults := 0,
                      frzBad := 0, trigger := none, auditTick := 0, auditFail := 0, auditSum := 0, auditFails := 0,
                      audit := List.replicate 42 0#14 },
    lb := {} }

/-- The words of a channel that a start through LOAD keeps. -/
def Chan.kept (c : Chan) (n : Nat) : Chan :=
  { notify := n, refused := c.refused, misuse := c.misuse, timeouts := c.timeouts }

/-- The start of LOAD: every word that is not kept takes its reset value (R490, R314). -/
def Dev.loadReset (d : Dev) : Dev :=
  let keepPort : PortSt → PortSt := fun p =>
    { vddio := p.vddio, highRange := p.highRange, ready := p.ready, rstLow := p.rstLow, coll := p.coll,
      badCmd := p.badCmd, prst := p.prst,
      mAband := p.mAband, mEvict := p.mEvict, mRefuse := p.mRefuse }
  let pchans : List PkrChan := d.pk.chans.map fun c =>
    { miss := c.miss, trunc := c.trunc, lost := c.lost, ringcut := c.ringcut }
  { d with
    ck := { refMiss := d.ck.refMiss, clamped := d.ck.clamped, overruns := d.ck.overruns },
    cf := {}, pa := keepPort d.pa, pb := keepPort d.pb, yA := {}, yB := {}, yP := {},
    ar := { d.ar with holds := d.ar.holds.map fun h => { refused := h.refused }, bankRetPending := [], rateSh := 0,
                      rate := 0, limit := 0, banks := List.replicate 4 {}, stripe := none, ranges := [], retire := none,
                      retState := 0, rawOp := none },
    kl := { d.kl with budget := 0, overdraft := 0, pages := [], reading := none, buffers := [], prog := none,
                      uncovered := [], commit := none, waiting := false, stuck := false, poolAt := none, known := false,
                      lastCkpt := none, seqStart := none,
                      stale := [], released := [], free := 0 },
    cm := { badRel := d.cm.badRel, rstRel := d.cm.rstRel, ringTo := d.cm.ringTo,
            chans := (List.range 6).map fun k => (d.cm.chans.getD k {}).kept (if k = 2 ∨ k = 4 then 2 else 0) },
    pl := { locked := d.pl.locked, boat := d.pl.boat, gateRef := d.pl.gateRef, svcFail := d.pl.svcFail,
            peerDrop := d.pl.peerDrop },
    ev := { srcs := d.ev.srcs.map fun x => { lost := x.lost }, badComp := d.ev.badComp, spur := d.ev.spur,
            qA := { ovf := d.ev.qA.ovf }, qB := { ovf := d.ev.qB.ovf }, qP := { ovf := d.ev.qP.ovf },
            intA := d.ev.intA, intB := d.ev.intB },
    pk := { chans := pchans },
    ks := { sealedCnt := d.ks.sealedCnt, mismatch := d.ks.mismatch, repaired := d.ks.repaired, noSlot := d.ks.noSlot,
            overwritten := d.ks.overwritten, guestRej := d.ks.guestRej },
    rg := { retxUp := d.rg.retxUp, retxDn := d.rg.retxDn, retrains := d.rg.retrains, crcErr := d.rg.crcErr,
            malform := d.rg.malform, stalls := d.rg.stalls, dropHop := d.rg.dropHop, mkBad := d.rg.mkBad,
            mkLate := d.rg.mkLate, tickSet := d.rg.tickSet, repRetry := d.rg.repRetry, repRej := d.rg.repRej,
            semStale := d.rg.semStale, keepRx := d.rg.keepRx, beacons := d.rg.beacons },
    hn := { d.hn with stalled := [], trigger := none },
    lb := { d.lb with entries := [], cur := [], capturing := false, baseCode := 1, queue := [], gap := false,
                      units := [], frozen := none, frzRec := none, frzCmd := [],
                      replay := none, replayDue := false } }

/-! ### What LOAD writes (R90, R123) -/

/-- The timetable section's fields (R90). -/
def Dev.takeTimetable (d : Dev) (ws : List Word) : Dev :=
  { d with
    ck := { d.ck with lenReg := hTick ws, source := wAt ws 3 % 4, tickOut := bit (wAt ws 3) 2, slip := hSlip ws,
                      refLoss := wAt ws 5, intakeLead := wAt ws 6 },
    pa := { d.pa with clock := wAt ws 7 % 256, oneS := bit (wAt ws 7) 8 },
    pb := { d.pb with clock := wAt ws 9 % 256, oneS := bit (wAt ws 9) 8 },
    ar := { d.ar with limit := wAt ws 15, rateSh := wAt ws 15, rate := wAt ws 15 },
    kl := { d.kl with budget := wAt ws 13, free := wAt ws 13 },
    cf := { d.cf with run := timetableOf ws 0, hold := timetableOf ws 1, store := timetableOf ws 2,
                      ringNodes := wAt ws 11, ringHop := wAt ws 12, holdupUs := wAt ws 14, persistRate := wAt ws 16 } }

/-- The holds section's fields (R42, R57); the refusal counts are kept. -/
def Dev.takeHolds (d : Dev) (ws : List Word) : Dev :=
  let hs := List.zipWith (fun (h old : Hold) => { h with refused := old.refused }) (holdsOf ws) d.ar.holds
  { d with ar := { d.ar with holds := hs } }

/-- The packer section's fields (R350), and the record geometry they give (R353). -/
def Dev.takePacker (d : Dev) (ws : List Word) : Dev :=
  let n := field (wAt ws 0) 4 5
  let chans := List.zipWith (fun (i : Nat) (c : PkrChan) => if i < n then { c with desc := wAt ws (7 + i) } else c)
    (List.range 16) d.pk.chans
  let d := { d with pk := { d.pk with nCh := n, sealedHold := wAt ws 1 % 16, intake := wAt ws 2 + 16384 * (wAt ws 3 % 128),
                                      pre := wAt ws 4, post := wAt ws 5, descA := bit (wAt ws 6) 0,
                                      descB := bit (wAt ws 6) 1, chans := chans } }
  let w := d.recordWords
  let k := 1024 * d.sealedHold.pages / w
  { d with ks := { d.ks with wRec := w, slots := k, recs := List.replicate k {} } }

/-- The ring section's fields (R368, R419, R444). -/
def Dev.takeRing (d : Dev) (ws : List Word) : Dev :=
  let tallies : List Tally := (List.range 16).map fun t =>
    let w := wAt ws (8 + t)
    { declared := bit w 0, portA := bit w 1, portB := bit w 2 }
  { d with
    rg := { d.rg with cfgAnchor := bit (wAt ws 0) 4, guestHold := wAt ws 1 % 16, guestEn := bit (wAt ws 1) 4,
                      gWords := sectionG ws, keepMs := wAt ws 4, sleepMs := wAt ws 5, needASh := bit (wAt ws 6) 0,
                      needA := bit (wAt ws 6) 0, needBSh := bit (wAt ws 6) 1, needB := bit (wAt ws 6) 1,
                      wakeMs := wAt ws 7 },
    ks := { d.ks with tallies := tallies } }

/-- The events section's fields (R315): masks, targets, and each channel's notify (fixed on channels 2 and 4, R261), confirm and
ACK timeout. -/
def Dev.takeEvents (d : Dev) (ws : List Word) : Dev :=
  let srcs := List.zipWith (fun (n : Nat) (x : Source) =>
    let m := bit (wAt ws (1 + n / 14)) (n % 14)
    { x with maskSh := m, mask := m, targets := wAt ws (6 + n) % 8 }) (List.range 64) d.ev.srcs
  let chans := List.zipWith (fun (k : Nat) (c : Chan) =>
    let w := wAt ws (70 + 2 * k)
    { c with notify := if k = 2 ∨ k = 4 then 2 else w % 4, confirm := bit w 2, ackto := wAt ws (71 + 2 * k), acktoEff := wAt ws (71 + 2 * k) })
    (List.range 6) d.cm.chans
  { d with ev := { d.ev with srcs := srcs }, cm := { d.cm with chans := chans } }

/-- The clock at which a copy's divider reads it, as DEV_CFG_SEL shows it (R105, R125). -/
def clkCode (sfdp : Bool) (div : Nat) : Nat :=
  if !sfdp then 0 else if div = 30 then 3 else if div = 40 then 2 else if div = 60 then 1 else 0

/-! ### The flash (R104; the SFDP layout is PRESUMED: JESD216, log entry 94) -/

/-- Where the basic parameter table begins. -/
def sfdpTable (bs : List Byte) : Nat := leAt bs 12 3

/-- SFDP discovery succeeds: the signature, and a basic table of at least 9 DWORDs that can be read whole. -/
def sfdpFound (bs : List Byte) : Bool :=
  (bs.take 4 == [0x53#8, 0x46#8, 0x44#8, 0x50#8]) && (leAt bs 8 1 == 0) && (leAt bs 15 1 == 0xFF)
    && decide (9 ≤ leAt bs 11 1) && decide (sfdpTable bs + 4 * leAt bs 11 1 ≤ bs.length)

/-- DWORD `n` of the basic table, from 1; none where the table ends before it. -/
def sfdpDword (bs : List Byte) (n : Nat) : Option Nat :=
  if n ≤ leAt bs 11 1 then some (leAt bs (sfdpTable bs + 4 * (n - 1)) 4) else none

/-- The status read that a quad enable requirement names, and the bit of the answer that is the quad enable bit. -/
def quadRead : Nat → Option (Byte × Nat)
  | 1 | 4 | 5 | 6 => some (0x35#8, 1)
  | 2 => some (0x05#8, 6)
  | 3 => some (0x3F#8, 7)
  | _ => none

/-- Quad reads are enabled: the bit that the requirement names reads 1, or the flash has none. A table without the field, or with its
reserved code, names no bit, and quad reads do not count as enabled (DESIGN CHOICE, log entry 94). -/
def quadEnabled (req : Option Nat) (status : Byte) : Bool :=
  match req with
  | some 0 => true
  | some r => (quadRead r).elim false fun q => status.getLsbD q.2
  | none => false

/-- The read protocol, by the first row of R104's table that applies. -/
def flashRead (f : FlashId) : FlashRead :=
  if !sfdpFound f.sfdp then {}
  else
    let d1 := (sfdpDword f.sfdp 1).getD 0
    let d3 := (sfdpDword f.sfdp 3).getD 0
    let req := (sfdpDword f.sfdp 15).map fun w => field w 20 3
    let sr := (req.bind quadRead).map Prod.fst
    let quad := quadEnabled req f.status
    if bit d1 21 ∧ quad then
      { proto := 3, instr := BitVec.ofNat 8 (field d3 8 8), modeClocks := field d3 5 3, dummyClocks := field d3 0 5,
        statusRead := sr }
    else if bit d1 22 ∧ quad then
      { proto := 2, instr := BitVec.ofNat 8 (field d3 24 8), dummyClocks := field d3 16 5, statusRead := sr }
    else { proto := 1, instr := 0x0B#8, dummyClocks := 8, statusRead := sr }

/-- The code of a copy in DEV_CFG_SEL. -/
def copyCode : CopyId → Nat
  | .copyA => 0
  | .copyB => 1

/-- A copy that passed is loaded (R114, R123). -/
def Dev.takeCopy (d : Dev) (id : CopyId) (c : List Byte) : Dev :=
  let secs := (List.range 5).map fun i => secWords c (i + 1)
  let sec := fun i => secs.getD i []
  let d := ((((d.takeTimetable (sec 0)).takeHolds (sec 1)).takePacker (sec 2)).takeRing (sec 3)).takeEvents (sec 4)
  { d with cf := { d.cf with copySel := copyCode id, fallback := decide (d.cf.firstCand ≠ some id), seq := hdrSeq c,
                             cfClk := clkCode d.cf.sfdpOk (hdrDiv c), sections := secs, pilotFw := secBytes c 6 } }

/-- The rota of the harbour image in every bank (R117): 8 positions of each port 4 apart, and 8 of the scrubber. The other
positions, and the port positions' places, are the model's, and so are the HOLD and STORE timetables, of which R117 says nothing: HOLD is
RUN's, and STORE gives the scrubber's positions to the keel store, 7 (DESIGN CHOICE, log entry 31). -/
def harbourRota (scrub : Nat) : List Nat := (List.replicate 8 [1, 2, scrub, 0]).flatMap id

/-- Sections 1 to 5 of the harbour image as mask ROM holds them: no window entry, no hold, no channel. What their words hold beyond
what R117 states is a free value (log entry 8). -/
def harbourSections : List (List Word) :=
  let words := fun ty n => (List.range n).map (Config.harbourWord ty)
  [words 1 152, [0#14], words 3 7, words 4 24, words 5 82]

/-- A timetable of the harbour image. -/
def harbourTt (scrub : Nat) : Timetable := { rota := List.replicate 4 (harbourRota scrub), windows := [] }

/-- The harbour image is loaded (R117, R158): no hold, channel or ring; every source masked, PILOT_FAULT for both ports (R297); both ports
1S-1S-1S at 50 MHz. W of R353 with no channel is 80. -/
def Dev.takeHarbour (d : Dev) : Dev :=
  { d with
    ck := { d.ck with lenReg := 100000, source := 0, tickOut := false, slip := 0, refLoss := 8, intakeLead := 0 },
    pa := { d.pa with clock := 50, oneS := true }, pb := { d.pb with clock := 50, oneS := true },
    ev := { d.ev with srcs := d.ev.srcs.modify 1 fun x => { x with targets := 3 } },
    ar := { d.ar with limit := 4096, rateSh := 4096, rate := 4096 }, ks := { d.ks with wRec := 80 },
    cf := { d.cf with copySel := 2, fallback := true, seq := 0, cfClk := 0, run := harbourTt 6, hold := harbourTt 6,
                      store := harbourTt 7, sections := harbourSections, pilotFw := Config.harbourFirmware } }

/-! ### The configuration CRC (R124) -/

/-- The bytes of a configuration, sections in ascending type. -/
def cfgBytes (secs : List (List Word)) (fw : List Byte) : List Byte := secs.flatMap wordsBytes ++ fw

/-- Put the low `n` bits of a value at bit `lo` of word `i` of a section. -/
def putBits (ws : List Word) (i lo n v : Nat) : List Word :=
  ws.modify i fun w => wd (w.toNat - field w.toNat lo n * 2 ^ lo + (v % 2 ^ n) * 2 ^ lo)

/-- Put a list of fields. -/
def putAll (ws : List Word) : List (Nat × Nat × Nat × Nat) → List Word
  | [] => ws
  | (i, lo, n, v) :: r => putAll (putBits ws i lo n v) r

/-- HLD_ATTR of a hold (R58). -/
def Hold.attr (h : Hold) : Nat :=
  b2n h.persistent + 2 * h.policy.code + 8 * b2n h.sealed + 16 * (h.rope % 8) + 128 * b2n h.writeA + 256 * b2n h.writeB

/-- The LK fields of one entry of the holds section as they stand. -/
def Dev.holdFields (d : Dev) (ws : List Word) (i : Nat) : List (Nat × Nat × Nat × Nat) :=
  let h := d.hold (holdNo ws i)
  [(2 + 4 * i, 0, 11, h.base), (3 + 4 * i, 0, 11, h.pages), (4 + 4 * i, 0, 9, h.attr)]

/-- The image's holds section lists a hold. -/
def Dev.holdListed (d : Dev) (n : Nat) : Bool :=
  let ws := d.cf.sections.getD 1 []
  (List.range (holdCount ws)).any fun i => holdNo ws i == n

/-- Entries for the holds that the image does not list and a pilot's write has given a value (R13, R124; DESIGN CHOICE, log entry
93). -/
def Dev.newHolds (d : Dev) : List Word :=
  ((List.range 16).filter fun n => !d.holdListed n
    && (let h := d.hold n; decide (h.base ≠ 0) || decide (h.pages ≠ 0) || decide (h.attr ≠ 0))).flatMap fun n =>
      [wd n, wd (d.hold n).base, wd (d.hold n).pages, wd (d.hold n).attr]

/-- A section rebuilt: each bit that LOAD wrote into an LK field is taken from the field (R124). -/
def Dev.rebuilt (d : Dev) (ty : Nat) (ws : List Word) : List Word :=
  match ty with
  | 1 => putAll ws [(1, 0, 14, d.ck.lenReg), (2, 0, 6, d.ck.lenReg / 16384), (3, 0, 2, d.ck.source),
      (3, 2, 1, b2n d.ck.tickOut), (4, 0, 13, d.ck.slip), (5, 0, 8, d.ck.refLoss), (6, 0, 14, d.ck.intakeLead),
      (13, 0, 10, d.kl.budget), (15, 0, 13, d.ar.limit)]
  | 2 => putAll ws ((List.range (holdCount ws)).flatMap fun i => d.holdFields ws i) ++ d.newHolds
  | 3 => putAll ws [(0, 4, 5, d.pk.nCh), (1, 0, 4, d.pk.sealedHold), (2, 0, 14, d.pk.intake),
      (3, 0, 7, d.pk.intake / 16384), (4, 0, 14, d.pk.pre), (5, 0, 14, d.pk.post), (6, 0, 1, b2n d.pk.descA),
      (6, 1, 1, b2n d.pk.descB)]
  | 4 => putAll ws ([(0, 4, 1, b2n d.rg.cfgAnchor), (1, 0, 4, d.rg.guestHold), (1, 4, 1, b2n d.rg.guestEn),
      (2, 0, 14, d.rg.gWords), (3, 0, 7, d.rg.gWords / 16384), (4, 0, 10, d.rg.keepMs), (5, 0, 14, d.rg.sleepMs),
      (7, 0, 10, d.rg.wakeMs)] ++ (List.range 16).map fun t =>
        let x := d.ks.tallies.getD t {}
        (8 + t, 0, 3, b2n x.declared + 2 * b2n x.portA + 4 * b2n x.portB))
  | 5 => putAll ws ((List.range 64).map fun n => (6 + n, 0, 3, (d.ev.srcs.getD n {}).targets))
  | _ => ws

/-- The CRC of the retained configuration as it now stands (R124, R150). -/
def Dev.cfgCrcNow (d : Dev) : Nat :=
  crc32 (cfgBytes ((List.range 5).map fun i => d.rebuilt (i + 1) (d.cf.sections.getD i [])) d.cf.pilotFw)

/-! ### Copies in turn (R114, R115) -/

/-- The outcome of a copy in its register. -/
def Dev.setReason (d : Dev) (id : CopyId) (r : Nat) : Dev :=
  match id with
  | .copyA => { d with cf := { d.cf with rsnA := r } }
  | .copyB => { d with cf := { d.cf with rsnB := r } }

/-- A header makes its copy a candidate, or leaves a reason (R114, R115). -/
def candidateOf (id : CopyId) (h : List Byte) : Option Candidate × Nat :=
  if !magicOk h then (none, 1)
  else if hdrSeq h = 0xFFFFFFFF then (none, 8)
  else (some { copy := id, seq := hdrSeq h, header := h }, 0x3FFF)

/-- The candidates in order: the higher sequence first, copy A first of equals (R114). -/
def orderCands : Option Candidate → Option Candidate → List Candidate
  | some a, some b => if a.seq < b.seq then [b, a] else [a, b]
  | some a, none => [a]
  | none, some b => [b]
  | none, none => []

/-- Candidates whose headers fail reasons 0x0002 or 0x0003 are rejected when their turn comes (R106). -/
def Dev.skipBad (d : Dev) : List Candidate → Dev
  | [] => { d with cf := { d.cf with cands := [] } }
  | c :: cs =>
    if headerReason c.header ≠ 0 then (d.setReason c.copy (headerReason c.header)).skipBad cs
    else { d with cf := { d.cf with cands := c :: cs } }

/-- LOAD reads the SFDP and the two headers (R104, R105, R114). -/
def Dev.readHeaders (d : Dev) (f : FlashId) (ha hb : List Byte) : Dev :=
  let (ca, ra) := candidateOf .copyA ha
  let (cb, rb) := candidateOf .copyB hb
  let cands := orderCands ca cb
  let d := { d with cf := { d.cf with sfdpOk := sfdpFound f.sfdp, read := flashRead f, rsnA := ra, rsnB := rb,
                                      firstCand := cands.head?.map Candidate.copy } }
  d.skipBad cands

/-- The tick starts as LOAD ends (R72): tick 0 at its slot 0. -/
def Dev.startTicks (d : Dev) (t : Nat) : Dev :=
  { d with ck := { d.ck with running := true, tick := t, slot := 0, curLen := d.ck.lenReg, nextLen := none,
                             setTick := none, deadline := d.ck.lenReg - d.ck.intakeLead, matched := false,
                             matchedNext := false, missed := 0, holdover := false, lastCheck := none, openEntries := [],
                             tickPin := if d.ck.tickOut then some false else none },
           rg := { d.rg with agreed := decide (d.cf.ringNodes = 0) } }

/-- LOAD ends: the CRC is computed and retained, the tick starts, and FILL begins (R123, R124, R72). -/
def Dev.endLoad (d : Dev) : Dev :=
  let crc := crc32 (cfgBytes d.cf.sections d.cf.pilotFw)
  let d := { d with cf := { d.cf with crc := crc, cands := [], loaded := true }, pw := { d.pw with retCrc := crc } }
  (d.startTicks 0).setMode .fill

/-- Where no candidate remains, the harbour image is loaded and LOAD ends (R114). -/
def Dev.nextCandidate (d : Dev) : Dev := if d.cf.cands.isEmpty then d.takeHarbour.endLoad else d

end Sys2Proof.Machine
end

