-- ==== Sys2Proof/Machine/Clock.lean ====
section
/-!
DEFINITION. The tick reference and the length of the next tick (R73 to R76, R403).
-/
namespace Sys2Proof.Machine
open Sys2Proof

/-- A value between two bounds of equal size. -/
def clampInt (e : Int) (m : Nat) : Int := if e > m then m else if e < -(m : Int) then -(m : Int) else e

/-- The distance of two slots. -/
def dist (a b : Int) : Nat := (a - b).natAbs

/-- The local tick boundary nearest to a slot, ties to the earlier: its slot in the running tick, and its tick (R74). -/
def Dev.nearest (d : Dev) (r : Int) : Int × Nat :=
  let p : Int × Nat := (-(d.ck.prevLen : Int), d.ck.tick - 1)
  let c : Int × Nat := (0, d.ck.tick)
  let n : Int × Nat := (d.ck.curLen, d.ck.tick + 1)
  let pc := if d.ck.prevLen = 0 then c else if dist r p.1 ≤ dist r c.1 then p else c
  if dist r pc.1 ≤ dist r n.1 then pc else n

/-- A reference captured in the current slot (R74, R75): the device leaves holdover, and missed ticks count anew. The answer holds the
boundary it is matched to. -/
def Dev.applyRef (d : Dev) (knownDelay : Nat) : Dev × Nat :=
  let r : Int := (d.ck.slot : Int) - knownDelay
  let b := d.nearest r
  let e := r - b.1
  let slip := d.ck.slip
  let d := { d with ck := { d.ck with phase := clampInt e 8191, holdover := false,
                                      nextLen := some ((d.ck.lenReg : Int) + clampInt e slip).toNat, missed := 0,
                                      matched := d.ck.matched || decide (b.2 = d.ck.tick),
                                      matchedNext := d.ck.matchedNext || decide (b.2 = d.ck.tick + 1) } }
  let d := if e > slip ∨ e < -(slip : Int) then
      { d with ck := { d.ck with clamped := satInc 14 d.ck.clamped } }.fire 26
    else d
  (d, b.2)

/-- The tick pin is the reference, and a tick runs (R72, R74). -/
def Dev.pinReference (d : Dev) : Dev :=
  let d := d.capturePin 9 1
  if d.ck.source = 1 ∧ d.ck.running then (d.applyRef 3).1 else d

/-- The tick that ends is judged (R75): a tick whose starting boundary has no matched reference counts as missed. -/
def Dev.judgeTick (d : Dev) : Dev :=
  if d.ck.source = 0 then d
  else if d.ck.matched then { d with ck := { d.ck with missed := 0 } }
  else { d with ck := { d.ck with missed := d.ck.missed + 1, refMiss := satInc 14 d.ck.refMiss } }

/-- Holdover begins after ref_loss_ticks consecutive missed ticks (R75). -/
def Dev.holdoverEntry (d : Dev) : Dev :=
  if d.ck.source ≠ 0 ∧ ¬ d.ck.holdover ∧ d.ck.refLoss ≤ d.ck.missed then
    { d with ck := { d.ck with holdover := true } }.fire 27
  else d

/-- The TICK ball is driven high from slot 3 and low from slot 35 (R76). -/
def Dev.tickOutEdge (d : Dev) : Dev :=
  if d.ck.tickOut ∧ d.ck.running then
    let lvl := decide (3 ≤ d.ck.slot) && decide (d.ck.slot ≤ 34)
    { d.emitPin 4 (d.ck.tickPin.getD false) lvl with ck := { d.ck with tickPin := some lvl } }
  else { d with ck := { d.ck with tickPin := none } }

end Sys2Proof.Machine
end

