-- ==== Sys2Proof/Machine/Frames.lean ====
section
/-!
DEFINITION. The bytes of what crosses a link: a frame between its SOF and its EOF, with its header and its CRC-32, what a receiver
makes of such bytes, and the field bytes and the check of a MARK (R385 to R389, R425).
-/
namespace Sys2Proof.Machine
open Sys2Proof

/-- The frame type of a code (R388). -/
def frameTypeOf : Nat → Option FrameType
  | 1 => some .enum | 2 => some .enumEnd | 3 => some .ringmap | 4 => some .fold | 5 => some .rep | 6 => some .belay
  | 7 => some .query | 8 => some .trep | 9 => some .qnone | 10 => some .semclaim | 11 => some .semrel | 12 => some .semstate
  | 13 => some .peer | 14 => some .deliv | 15 => some .keep | _ => none

/-- Pad a payload to whole groups of four words (R387). -/
def padWords (ws : List Word) : List Word := ws ++ List.replicate ((4 - ws.length % 4) % 4) 0#14

/-- The header and payload bytes of a frame with a link sequence (R386, R387). -/
def Frame.bytes (f : Frame) (seq : Nat) : List Byte :=
  let g := ceilDiv f.payload.length 4
  let v := f.typ.code + 16 * f.typ.cls + 2 ^ 6 * (f.src % 1024) + 2 ^ 16 * (f.dst % 1024) + 2 ^ 26 * (seq % 4096)
    + 2 ^ 38 * (7 * g) + 2 ^ 47 * (f.hops % 4096) + 2 ^ 59 * b2n f.bcast + 2 ^ 60 * b2n f.reply
  toBytes v 8 ++ unpackGroups g f.payload

/-- A frame between its SOF and its EOF: header, payload and the CRC-32 over both (R386). -/
def Frame.wire (f : Frame) (seq : Nat) : List Byte := f.bytes seq ++ toBytes (crc32 (f.bytes seq)) 4

/-- The payload words that a type calls for; PEER names its own length in word 1 (R388). -/
def frameWords (ty : FrameType) (ws : List Word) : Nat :=
  match ty with
  | .enum => 6 | .enumEnd => 2 | .ringmap => 3 | .fold => 2 | .rep => 4 | .belay => 2 | .query => 3 | .trep => 92
  | .qnone => 3 | .semclaim => 3 | .semrel => 1 | .semstate => 5 | .peer => 2 + (ws.getD 1 0#14).toNat | .deliv => 1
  | .keep => 4

/-- What a receiver makes of the bytes between an SOF and an EOF (R389, R393): a CRC failure, a malformed frame with the class and the
link sequence its header carries, or a frame with its link sequence. -/
inductive Arrival where
  | bad
  | malformed (cls seq : Nat)
  | frame (f : Frame) (seq : Nat)
  deriving DecidableEq, Repr

/-- The frame that a header and the words of a payload give (R386). -/
def frameOf (ty : FrameType) (v : Nat) (ws : List Word) : Frame :=
  { typ := ty, src := field v 6 10, dst := field v 16 10, hops := field v 47 12, bcast := bit v 59, reply := bit v 60,
    payload := ws }

/-- A frame of a type breaks a rule of its layout (R389): its class is not its type's, a reserved bit of the header or of a KEEP's
reasons is set, or its length is no number of groups, above 252, or short of its type's payload. -/
def frameMalformed (ty : FrameType) (v : Nat) (ws : List Word) : Bool :=
  let len := field v 38 9
  decide (field v 4 2 ≠ ty.cls) || decide (field v 61 3 ≠ 0) || decide (len % 7 ≠ 0) || decide (252 < len)
    || decide (ws.length < frameWords ty ws) || (ty == .keep && decide (256 ≤ (ws.getD 0 0#14).toNat))

/-- The bytes between an SOF and an EOF (R386, R389). A length that does not reach to the CRC leaves the CRC failing (DEDUCED, log entry
104). -/
def readFrame (bs : List Byte) : Arrival :=
  let n := bs.length - 4
  let v := leBytes (bs.take 8)
  if bs.length < 12 ∨ field v 38 9 + 8 ≠ n ∨ leBytes (bs.drop n) ≠ crc32 (bs.take n) then .bad
  else
    let ws := packGroups (field v 38 9 / 7) ((bs.take n).drop 8)
    match frameTypeOf (v % 16) with
    | none => .malformed (field v 4 2) (field v 26 12)
    | some ty =>
      if frameMalformed ty v ws then .malformed (field v 4 2) (field v 26 12) else .frame (frameOf ty v ws) (field v 26 12)

/-- The frame of a FRAME record, which has no CRC, with its link sequence (R386, R468). -/
def frameOfBytes (bs : List Byte) : Option (Frame × Nat) :=
  let v := leBytes (bs.take 8)
  (frameTypeOf (v % 16)).map fun ty => (frameOf ty v (packGroups (ceilDiv (bs.length - 8) 7) (bs.drop 8)), field v 26 12)

/-- Bytes that a receiver takes as a frame of a type. -/
def spellsFrame (ty : FrameType) (bs : List Byte) : Bool :=
  match readFrame bs with
  | .frame f _ => f.typ == ty
  | _ => false

/-- The 12 field bytes of a MARK (R385). -/
def markBytes (tick acc hops : Nat) : List Byte := toBytes tick 7 ++ toBytes acc 3 ++ toBytes (hops % 1024) 2

/-- The check of a MARK: the low 16 bits of the CRC-32 over its field bytes (R385). -/
def markCheck (tick acc hops : Nat) : Nat := crc32 (markBytes tick acc hops) % 65536

end Sys2Proof.Machine
end

