-- ==== Sys2Proof/Machine/Ring.lean ====
section
/-!
DEFINITION. The ferry ring's links: logical links, routes, frames and their numbering, credits, folding and healing,
training, enumeration at the anchor, the marker, ring semaphores (chapter 15).
-/
namespace Sys2Proof.Machine
open Sys2Proof

/-! ### Links -/

/-- A physical link's state. -/
def Dev.link (d : Dev) : Link → LinkSt
  | .up => d.rg.up
  | .dn => d.rg.dn

/-- Change a physical link's state. -/
def Dev.modLink (d : Dev) (l : Link) (f : LinkSt → LinkSt) : Dev :=
  match l with
  | .up => { d with rg := { d.rg with up := f d.rg.up } }
  | .dn => { d with rg := { d.rg with dn := f d.rg.dn } }

/-- The physical link of a logical link, and the logical link of a physical one (R379, R397). -/
def Dev.logical (d : Dev) (l : Link) : Link := if d.rg.swapped then l.other else l

/-- The number of a logical link in a logbook record: 0 UP, 1 DN (R468). -/
def Dev.linkNo (d : Dev) (l : Link) : Nat :=
  match d.logical l with
  | .up => 0
  | .dn => 1

/-- The image declares a ring (R421). -/
def Dev.hasRing (d : Dev) : Bool := decide (d.cf.ringNodes ≠ 0)

/-- The modes in which links train (R380): FILL, TEST and every mode with an image timetable, not under the harbour
image. -/
def Dev.linksTrain (d : Dev) : Bool :=
  (d.cf.copySel != 2) && (d.pw.mode.timetabled || d.pw.mode == .fill || d.pw.mode == .test)

/-- Nodes that enumeration found (R398). -/
def Dev.ringCount (d : Dev) : Nat := d.rg.dMax + 1 + (1024 - d.rg.uMin)

/-- The node acts as the ring's anchor: its ring section says so, and no anchor with a lower identifier has made it an ordinary node
(R396, R399). -/
def Dev.isAnchor (d : Dev) : Bool := d.rg.cfgAnchor && d.hasRing && !d.rg.conflict

/-- A link that turns frames: its hop is broken, or it has not been ACTIVE (R405, DEDUCED, log entry 32). -/
def LinkSt.turns (x : LinkSt) : Bool := x.broken || !x.everActive

/-- The link on which a frame bound downstream leaves (R405). -/
def Dev.outDown (d : Dev) : Link :=
  if (d.link (d.logical .dn)).turns && !(d.link (d.logical .up)).turns then d.logical .up else d.logical .dn

/-- The link on which a frame that arrived on a link is forwarded (R405). -/
def Dev.outFrom (d : Dev) (l : Link) : Link :=
  if l = d.logical .up then d.outDown
  else if (d.link (d.logical .up)).turns then d.logical .dn else d.logical .up

/-- A node's place in the downstream order (R398). -/
def Dev.ringPos (d : Dev) (n : Nat) : Nat := if n ≤ d.rg.dMax then n else d.rg.dMax + 1 + (n - d.rg.uMin)

/-- The node at a place of the downstream order (R398). -/
def Dev.nodeAt (d : Dev) (p : Nat) : Nat :=
  let q := p % d.ringCount
  if q ≤ d.rg.dMax then q else d.rg.uMin + (q - d.rg.dMax - 1)

/-- A node ID lies in the enumerated ring (R398). -/
def Dev.inRing (d : Dev) (n : Nat) : Bool := decide (n ≤ d.rg.dMax) || (decide (d.rg.uMin ≤ n) && decide (n < 1024))

/-- No hop of the break list lies between two places, going downstream. -/
def Dev.clearFrom (d : Dev) (a b : Nat) : Bool :=
  let n := d.ringCount
  let steps := (b + n - a) % n
  d.rg.breaks.all fun u => decide (steps ≤ (d.ringPos u + n - a) % n)

/-- A path exists between this node and another (R407). -/
def Dev.pathTo (d : Dev) (n : Nat) : Bool :=
  let a := d.ringPos d.rg.nodeId
  let b := d.ringPos n
  d.rg.numbered && d.inRing n && (d.clearFrom a b || d.clearFrom b a)

/-! ### Frames (R386 to R391) -/

/-- Queue a local frame on a link. -/
def Dev.queueLocal (d : Dev) (l : Link) (f : Frame) : Dev :=
  d.modLink l fun x => { x with locals := x.locals ++ [f] }

/-- A numbered node of a ring originates frames, in the modes that use an image timetable (R380, R398, R421). -/
def Dev.originates (d : Dev) : Bool := d.rg.numbered && d.hasRing && d.pw.mode.timetabled

/-- Originate a frame of a type (R386, R405). -/
def Dev.originate (d : Dev) (typ : FrameType) (dst : Nat) (bcast reply : Bool) (payload : List Word) : Dev :=
  if d.originates then
    d.queueLocal d.outDown { typ := typ, src := d.rg.nodeId, dst := dst, hops := 0, bcast := bcast, reply := reply,
                             payload := padWords payload }
  else d

/-- Originate a frame for the neighbour on a link (ENUM and ENUM_END, R388). -/
def Dev.originateOn (d : Dev) (l : Link) (typ : FrameType) (payload : List Word) : Dev :=
  d.queueLocal l { typ := typ, src := d.rg.nodeId, dst := 0, hops := 0, bcast := false, reply := false,
                   payload := padWords payload }

/-- A credit of a class is owed to the neighbour on a link (R391). -/
def Dev.oweCredit (d : Dev) (l : Link) (cls : Nat) : Dev :=
  d.modLink l fun x => { x with crdOwed := x.crdOwed ++ [cls] }

/-- Forward a frame that arrived on a link, within the hop limit (R390, R391). -/
def Dev.forwardFrame (d : Dev) (l : Link) (f : Frame) : Dev :=
  if 2 * d.ringCount + 1 < f.hops + 1 then
    { d with rg := { d.rg with dropHop := satInc 14 d.rg.dropHop } }.oweCredit l f.typ.cls
  else
    d.modLink (d.outFrom l) fun x => { x with through := x.through ++ [({ f with hops := f.hops + 1 }, some l)] }

/-! ### Numbering and retry (R393 to R395) -/

/-- A frame with a good CRC arrives: the receiver's answer, and whether it accepts it (R393). -/
def Dev.acceptSeq (d : Dev) (l : Link) (seq : Nat) : Dev × Bool :=
  let x := d.link l
  let behind := (x.rxSeq + 4096 - seq) % 4096
  if behind = 0 then
    (d.modLink l fun x => { x with rxSeq := (x.rxSeq + 1) % 4096, ackOwed := some seq, nakSent := false }, true)
  else if behind ≤ 2047 then
    (d.modLink l fun x => { x with ackOwed := some ((x.rxSeq + 4095) % 4096) }, false)
  else if x.nakSent then (d, false)
  else (d.modLink l fun x => { x with nakOwed := some x.rxSeq, nakSent := true }, false)

/-- A frame that is not accepted: a CRC failure is counted, and one NAK names the next expected (R393). A frame that ends in ABORT is
no CRC failure (DEDUCED, log entry 104). -/
def Dev.badFrame (d : Dev) (l : Link) (crc : Bool) : Dev :=
  let d := if crc then { d with rg := { d.rg with crcErr := satInc 14 d.rg.crcErr } } else d
  if (d.link l).nakSent then d else d.modLink l fun x => { x with nakOwed := some x.rxSeq, nakSent := true }

/-- The place of the link sequence in the unacknowledged frames. -/
def findSeq (seq : Nat) : List SentFrame → Option Nat
  | [] => none
  | f :: fs => if f.seq = seq then some 0 else (findSeq seq fs).map Nat.succ

/-- Every member in SEND or AWAIT returns to WAIT, counted (R414). -/
def RecSlot.retry (r : RecSlot) : RecSlot × Nat :=
  let back : RepState → Bool := fun m => match m with
    | .send | .await _ => true
    | _ => false
  ({ r with members := r.members.map fun m => if back m then .wait else m }, (r.members.filter back).length)

/-- RING_FOLD, RING_HEAL or LINK_RETRAIN at this node (R414). -/
def Dev.ropeRetry (d : Dev) : Dev :=
  let n := (d.ks.recs.map fun r => r.retry.2).sum
  { d with ks := { d.ks with recs := d.ks.recs.map fun r => r.retry.1 },
           rg := { d.rg with repRetry := satInc 14 d.rg.repRetry n, roping := none } }

/-- The link retrains (R395). -/
def Dev.retrain (d : Dev) (l : Link) : Dev :=
  let d := { d with rg := { d.rg with retrains := satInc 14 d.rg.retrains } }
  let d := d.modLink l fun x => { x with state := .training, step := 3, retrain := true, stepAt := d.now, tries := 0,
                                         resend := [], pongs := [] }
  (d.fire 43).ropeRetry

/-- Frames of a link are resent from a place of its unacknowledged ones; after 8 consecutive resends without progress the
link retrains (R394, R395). -/
def Dev.resendFrom (d : Dev) (l : Link) (i : Nat) : Dev :=
  if 8 ≤ (d.link l).tries then d.retrain l
  else d.modLink l fun x => { x with resend := (x.unacked.drop i).map SentFrame.seq, tries := x.tries + 1 }

/-- ACK: the named frame and those before it are released (R394). -/
def Dev.takeAck (d : Dev) (l : Link) (seq : Nat) : Dev :=
  match findSeq seq (d.link l).unacked with
  | some i =>
    d.modLink l fun x =>
      let rest := x.unacked.drop (i + 1)
      { x with unacked := rest, tries := 0, resend := x.resend.filter fun n => (findSeq n rest).isSome }
  | none => d

/-- NAK: the sender resends from the named frame (R394). -/
def Dev.takeNak (d : Dev) (l : Link) (seq : Nat) : Dev :=
  match findSeq seq (d.link l).unacked with
  | some i => d.resendFrom l i
  | none => d

/-- The oldest unacknowledged frame has had no ACK for 4 µs: the sender resends from it (R394). -/
def Dev.retryTimeout (d : Dev) (l : Link) : Dev :=
  match (d.link l).unacked with
  | f :: _ => if f.sentAt + 4000 ≤ d.now then d.resendFrom l 0 else d
  | [] => d

/-- CRD: credits of a class return (R391). -/
def Dev.takeCrd (d : Dev) (l : Link) (cls n : Nat) : Dev :=
  d.modLink l fun x =>
    let k := min n (x.held.getD cls 0)
    { x with held := x.held.modify cls (· - k), credits := x.credits.modify cls (· + k) }

/-! ### Folding and healing (R405 to R409) -/

/-- The node before another in the downstream order. -/
def Dev.nodeBefore (d : Dev) (n : Nat) : Nat := d.nodeAt (d.ringPos n + d.ringCount - 1)

/-- The upstream node of a hop of this node. -/
def Dev.hopName (d : Dev) (l : Link) : Nat :=
  if l = d.logical .dn then d.rg.nodeId else d.nodeBefore d.rg.nodeId

/-- A hop becomes known as broken (R406). -/
def Dev.noteBroken (d : Dev) (u : Nat) : Dev :=
  if d.rg.breaks.contains u then d
  else
    let d := if d.rg.breaks.length < 8 then { d with rg := { d.rg with breaks := d.rg.breaks ++ [u] } } else d
    (d.fire 39).ropeRetry

/-- A hop becomes known as healed (R409). -/
def Dev.noteHealed (d : Dev) (u : Nat) : Dev :=
  if d.rg.breaks.contains u then
    ({ d with rg := { d.rg with breaks := d.rg.breaks.filter fun x => x != u } }.fire 40).ropeRetry
  else d

/-- The frames of a hop are turned back, in original order (R408). -/
def Dev.turnBack (d : Dev) (l : Link) : Dev :=
  let x := d.link l
  let old := (x.unacked.map fun f => (f.frame, (none : Option Link))) ++ x.through
    ++ x.locals.map fun f => (f, (none : Option Link))
  if (d.link l.other).turns then d
  else
    let d := d.modLink l fun x => { x with unacked := [], resend := [], through := [], locals := [] }
    d.modLink l.other fun y => { y with through := y.through ++ old }

/-- A hop of this node breaks (R405, R406). -/
def Dev.breakHop (d : Dev) (l : Link) : Dev :=
  if (d.link l).everActive && !(d.link l).broken && d.hasRing then
    let d := (d.modLink l fun x => { x with broken := true }).turnBack l
    if d.rg.numbered then
      let u := d.hopName l
      (d.noteBroken u).originate .fold 0 true false [wd u, 0#14, 0#14, 0#14]
    else d
  else d

/-- A broken link is ACTIVE again (R409). -/
def Dev.healHop (d : Dev) (l : Link) : Dev :=
  if (d.link l).broken then
    let d := d.modLink l fun x => { x with broken := false }
    if d.rg.numbered then
      let u := d.hopName l
      (d.noteHealed u).originate .fold 0 true false [wd u, 1#14, 0#14, 0#14]
    else d
  else d

/-! ### Training (R380 to R384) -/

/-- Training starts at a step. -/
def Dev.startTraining (d : Dev) (l : Link) (step : Nat) : Dev :=
  d.modLink l fun x => { x with state := .training, step := step, retrain := false, stepAt := d.now, pongs := [],
                                pingOwed := [] }

/-- In REPLAY the live links keep their own protocol, and what happens on them changes nothing else (R480). -/
def Dev.onWire (d : Dev) (f : Dev → Dev) : Dev :=
  match d.lb.replay with
  | some r =>
    if d.pw.mode = .replay then
      let e := f { d with rg := { d.rg with up := r.liveUp, dn := r.liveDn } }
      { d with lb := { d.lb with replay := some { r with liveUp := e.rg.up, liveDn := e.rg.dn } } }
    else f d
  | none => f d

/-- A link state change is an input that the logbook captures (R468, R470). -/
def Dev.captureLink (d : Dev) (l : Link) (event value : Nat) : Dev :=
  d.capture 7 d.ck.slot (wd (7 + 16 * d.linkNo l + 32 * event) :: twoWords d.ck.slot ++ twoWords value)

/-- Capture the link's state. -/
def Dev.captureState (d : Dev) (l : Link) : Dev := d.captureLink l 3 (d.link l).state.code

/-- The probe's answer (R380 step 1, R381); after a driver or nothing has answered, the step repeats every 10 ms. -/
def Dev.linkDetect (d : Dev) (l : Link) (r : ProbeResult) : Dev :=
  let x := d.link l
  if x.step = 1 ∧ (x.state = .training ∨ x.stepAt + 10000000 ≤ d.now) then
    match r with
    | .receiver => (d.startTraining l 2).captureState l
    | .driver =>
      let d := d.modLink l fun x => { x with state := .reversed, stepAt := d.now }
      if x.state = .reversed then d else ((d.fire 41).breakHop l).captureState l
    | .nothing => (d.modLink l fun x => { x with state := .los, stepAt := d.now }).captureState l
  else d

/-- The mean of 8 doubled measurements, to the nearest 1/16 cycle, ties down (R383). -/
def meanDelay (ps : List Int) : Nat := ((ps.foldl (· + ·) 0 + 7) / 16).toNat

/-- The credits of a link at its first ACTIVE, less the frames that are still to be acknowledged (R391, R433). -/
def LinkSt.fullCredits (x : LinkSt) : List Nat × List Nat :=
  let held := (List.range 4).map fun c => (x.unacked.filter fun f => f.frame.typ.cls == c).length
  (List.zipWith (· - ·) [8, 8, 4, 4] held, held)

/-- Training completes: the link is ACTIVE (R380, R391, R395, R409, R432). -/
def Dev.linkActive (d : Dev) (l : Link) : Dev :=
  let x := d.link l
  let fresh := !x.everActive || x.restart
  let cr := x.fullCredits
  let d := d.modLink l fun x =>
    { x with state := .active, step := 0, retrain := false, asleep := false, everActive := true, restart := false,
             stepAt := d.now, resend := x.unacked.map SentFrame.seq, resendFirst := !x.unacked.isEmpty, tries := 0,
             nakSent := false,
             credits := if fresh then cr.1 else x.credits, held := if fresh then cr.2 else x.held }
  let d := (d.captureState l).healHop l
  match d.rg.enumHeld with
  | some (id, dir, uid) =>
    let out := if dir = 0 then d.logical .dn else d.logical .up
    if l = out then
      { d with rg := { d.rg with enumHeld := none } }.originateOn l .enum ([wd id, wd dir] ++ toWords uid 4)
    else d
  | none => d

/-- The slots that a link has at its training step: 100 µs for each of the steps 3 to 5, 1 ms for the whole of a retrain, no bound on
steps 1 and 2 (R380, R395). -/
def LinkSt.limit (x : LinkSt) : Option Nat :=
  if x.retrain then some 1000000 else if 3 ≤ x.step then some 100000 else none

/-- The limit of a link's training step has passed (R380, R395). -/
def Dev.stepOver (d : Dev) (l : Link) : Bool :=
  match (d.link l).limit with
  | some n => decide ((d.link l).stepAt + n ≤ d.now)
  | none => false

/-- A link goes to a training step; a retrain keeps the slot at which it began (R395). -/
def LinkSt.toStep (x : LinkSt) (n now : Nat) : LinkSt := { x with step := n, stepAt := if x.retrain then x.stepAt else now }

/-- A training step's end condition is met within its limit (R380, R382, R383). -/
def Dev.linkStep (d : Dev) (l : Link) (inverted : Bool) : Dev :=
  let x := d.link l
  if x.state ≠ .training ∨ d.stepOver l then d
  else match x.step with
    | 2 => d.modLink l fun x => x.toStep 3 d.now
    | 3 => d.modLink l fun x => { x.toStep 4 d.now with polInv := inverted, pongs := [] }
    | 4 =>
      if x.pongs.length = 8 then d.modLink l fun x => { x.toStep 5 d.now with dly := meanDelay x.pongs } else d
    | 5 => d.linkActive l
    | _ => d

/-- A step exceeds its limit (R380): the link returns to step 1. A retrain has the limit of R395 instead. -/
def Dev.stepTimeout (d : Dev) (l : Link) : Dev :=
  let x := d.link l
  if x.state = .training ∧ d.stepOver l ∧ ¬ x.retrain then (d.startTraining l 1).captureState l else d

/-- A retrain does not complete (R395). -/
def Dev.retrainTimeout (d : Dev) (l : Link) : Dev :=
  if (d.link l).retrain ∧ d.stepOver l then ((d.startTraining l 1).breakHop l).captureState l else d

/-- A loss of signal on an ACTIVE link (R384, R432). -/
def Dev.lossOfSignal (d : Dev) (l : Link) : Dev :=
  let x := d.link l
  if x.state = .active then
    let d := d.startTraining l 1
    (if x.asleep then d else (d.fire 42).breakHop l).captureState l
  else d

/-! ### Enumeration (R396 to R399) -/

/-- The node records a map of the ring (R397 step 5, R410). -/
def Dev.takeMap (d : Dev) (dMax uMin no : Nat) : Dev :=
  let d := { d with rg := { d.rg with dMax := dMax, uMin := uMin, enumNo := no, mapped := true, numbered := d.rg.numbered && d.rg.gotId,
                                      gotId := false } }
  let d := { d with rg := { d.rg with teamShort := decide (d.ringCount ≤ d.sealedHold.rope) && decide (d.sealedHold.rope ≠ 0) } }
  let d := d.fire 44
  if d.cf.ringNodes < d.ringCount then d.fire 45 else d

/-- The anchor ends enumeration: it broadcasts RINGMAP (R397 step 5). -/
def Dev.endEnum (d : Dev) (dMax uMin : Nat) : Dev :=
  let no := (d.rg.enumNo + 1) % 16384
  let d := { d with rg := { d.rg with enumPhase := .idle, gotId := true } }
  (d.takeMap dMax uMin no).originate .ringmap 0 true false [wd dMax, wd uMin, wd no, 0#14]

/-- The anchor's own identifier. -/
def Dev.uid (_ : Dev) : Nat := Config.uid.toNat

/-- The anchor begins enumeration: it takes ID 0 and sends ENUM 1 downstream (R397 step 1). -/
def Dev.startEnum (d : Dev) : Dev :=
  let d := { d with rg := { d.rg with nodeId := 0, numbered := true, swapped := false, gotId := true, enumPhase := .down,
                                      enumAt := d.now, enumHeld := none } }
  d.originateOn .dn .enum ([1#14, 0#14] ++ toWords d.uid 4)

/-- Enumeration is wanted and may begin (R396). -/
def Dev.enumReady (d : Dev) : Bool :=
  d.isAnchor && (d.rg.enumPhase == .wanted)
    && (((d.rg.up.state == .active) && (d.rg.dn.state == .active)) || decide (d.rg.runBeganAt + 100000000 ≤ d.now))

/-- The anchor sends ENUM 1,023 up, or ends enumeration (R397 step 4). -/
def Dev.enumUp (d : Dev) (dMax : Nat) : Dev :=
  if d.rg.up.state = .active then
    let d := { d with rg := { d.rg with enumPhase := .up, enumDMax := dMax, enumAt := d.now } }
    d.originateOn .up .enum ([1023#14, 1#14] ++ toWords d.uid 4)
  else d.endEnum dMax 1024

/-- A node turns enumeration back: ENUM_END with its own ID, towards the anchor (R397 steps 2 and 4). -/
def Dev.turnEnum (d : Dev) (dir : Nat) : Dev :=
  let back := if dir = 0 then d.logical .up else d.logical .dn
  { d with rg := { d.rg with enumHeld := none } }.originateOn back .enumEnd [wd d.rg.nodeId, wd dir, 0#14, 0#14]

/-- A node passes ENUM on, holds it for a link that trains, or turns it back (R397 steps 2 and 4). -/
def Dev.passEnum (d : Dev) (dir uid : Nat) : Dev :=
  let id := d.rg.nodeId
  let out := if dir = 0 then d.logical .dn else d.logical .up
  let nextId := if dir = 0 then id + 1 else id - 1
  let ends := if dir = 0 then decide (1024 ≤ id + 1) else decide (id ≤ d.rg.dMax + 1)
  if ends then d.turnEnum dir
  else match (d.link out).state with
    | .active => d.originateOn out .enum ([wd nextId, wd dir] ++ toWords uid 4)
    | .training => { d with rg := { d.rg with enumHeld := some (nextId, dir, uid), enumAt := d.now } }
    | _ => d.turnEnum dir

/-- A node takes an ID from ENUM (R397). -/
def Dev.takeId (d : Dev) (l : Link) (id dir uid : Nat) : Dev :=
  let swapped := if dir = 0 then decide (l = .dn) else decide (l = .up)
  { d with rg := { d.rg with swapped := swapped, nodeId := id, numbered := true, gotId := true } }.passEnum dir uid

/-- ENUM arrives (R397, R399). -/
def Dev.takeEnum (d : Dev) (l : Link) (ws : List Word) : Dev :=
  let id := (ws.getD 0 0#14).toNat % 1024
  let dir := (ws.getD 1 0#14).toNat % 2
  let uid := ofWords ((ws.drop 2).take 4)
  if d.isAnchor then
    if uid < d.uid then
      { d with rg := { d.rg with conflict := true, enumPhase := .idle } }.takeId l id dir uid
    else if uid = d.uid ∧ dir = 0 ∧ l = .up ∧ d.rg.enumPhase = .down then d.endEnum (id - 1) 1024
    else d
  else d.takeId l id dir uid

/-- ENUM_END arrives: it is relayed towards the anchor, or ends a direction there (R397 steps 2 to 5). -/
def Dev.takeEnumEnd (d : Dev) (ws : List Word) : Dev :=
  let last := (ws.getD 0 0#14).toNat
  let dir := (ws.getD 1 0#14).toNat % 2
  if d.isAnchor then
    if dir = 0 ∧ d.rg.enumPhase = .down then d.enumUp (if last = 0x3FFF then 0 else last)
    else if dir = 1 ∧ d.rg.enumPhase = .up then d.endEnum d.rg.enumDMax (if last = 0x3FFF then 1024 else last)
    else d
  else
    let back := if dir = 0 then d.logical .up else d.logical .dn
    d.originateOn back .enumEnd [wd last, wd dir, 0#14, 0#14]

/-! ### The marker (R400 to R403) -/

/-- The anchor starts a MARK at slot 0 of a tick (R400). -/
def Dev.sendMarks (d : Dev) : Dev :=
  if d.isAnchor && d.pw.mode.timetabled then
    let mark := some (d.ck.tick, 0, 0)
    let d := d.modLink (d.logical .dn) fun x => { x with markOwed := mark }
    if d.rg.breaks.isEmpty then d else d.modLink (d.logical .up) fun x => { x with markOwed := mark }
  else d

/-- A MARK serves as the tick's reference (R402, R403). -/
def Dev.markReference (d : Dev) (l : Link) (tick acc : Nat) : Dev :=
  let kd := acc + (d.link l).dly
  let known := (kd + 24) / 48
  let d := { d with rg := { d.rg with markTaken := true } }
  if d.ck.lenReg - d.ck.slip < known then { d with rg := { d.rg with mkLate := satInc 14 d.rg.mkLate } }
  else
    let (d, b) := d.applyRef known
    let d := { d with rg := { d.rg with kdly := kd % 16777216 } }
    if b = tick then d
    else { d with ck := { d.ck with setTick := some ((tick + 1) % 2 ^ 56) },
                  rg := { d.rg with tickSet := satInc 14 d.rg.tickSet } }

/-- A MARK that passes its check: the anchor removes its own; another node may take it for its reference, and forwards it
(R400 to R402). -/
def Dev.acceptMark (d : Dev) (l : Link) (tick acc hops fwd : Nat) : Dev :=
  let dly := (d.link l).dly
  let d := d.capture 8 d.ck.slot (wd (8 + 16 * d.linkNo l) :: twoWords d.ck.slot ++ twoWords (acc + dly)
    ++ toWords tick 4)
  if d.isAnchor then { d with rg := { d.rg with rt := acc } }
  else
    let d := if d.ck.source = 2 ∧ ¬ d.rg.markTaken ∧ d.ck.running then d.markReference l tick acc else d
    let out := l.other
    if (d.link out).broken ∨ (d.link out).state ≠ .active then d
    else d.modLink out fun x => { x with markOwed := some (tick, (acc + dly + 16 * fwd) % 16777216, (hops + 1) % 1024) }

/-- A MARK arrives: one that fails its check is counted and discarded (R385, R401). -/
def Dev.takeMark (d : Dev) (l : Link) (tick acc hops check fwd : Nat) : Dev :=
  if check = markCheck tick acc hops then d.acceptMark l tick acc hops fwd
  else { d with rg := { d.rg with mkBad := satInc 14 d.rg.mkBad } }

/-! ### Ring semaphores (R249 to R252, R416, R417) -/

/-- A ring semaphore's word. -/
def Dev.semR (d : Dev) (n : Nat) : SemRing := d.cm.semR.getD n {}

/-- Write a ring semaphore's word. -/
def Dev.setSemR (d : Dev) (n : Nat) (x : SemRing) : Dev :=
  { d with cm := { d.cm with semR := d.cm.semR.set n x } }

/-- The pending claim on a ring semaphore. -/
def Dev.claimOf (d : Dev) (n : Nat) : Option RingClaim := d.cm.claims.find? fun c => c.sem == n

/-- The claim on a ring semaphore is no longer pending. -/
def Dev.dropClaim (d : Dev) (n : Nat) : Dev :=
  { d with cm := { d.cm with claims := d.cm.claims.filter fun c => c.sem != n } }

/-- The owner's party code, 0 for none. -/
def partyNo : Option Party → Nat
  | some y => y.code
  | none => 0

/-- The SEMREL of a release, held while no path to node 0 exists (R417). -/
def Dev.sendRelease (d : Dev) (ws : List Word) : Dev :=
  if d.pathTo 0 then d.originate .semrel 0 false false ws
  else { d with rg := { d.rg with semHeld := d.rg.semHeld ++ [ws] } }

/-- Releases held for a path to node 0 leave when one exists (R417). -/
def Dev.flushReleases (d : Dev) : Dev :=
  if d.pathTo 0 then
    let held := d.rg.semHeld
    held.foldl (fun d ws => d.originate .semrel 0 false false ws) { d with rg := { d.rg with semHeld := [] } }
  else d

/-- A SEMSTATE's words (R388). -/
def semstateWords (n : Nat) (x : SemRing) (node party : Nat) : List Word :=
  [wd n, wd x.node, wd (partyNo x.party + 4 * b2n x.broken), wd node, wd party, 0#14, 0#14, 0#14]

/-- The state after an action reaches a node (R416): its word, the answer to its pending claim, and the release of a grant
that nothing waits for. -/
def Dev.takeState (d : Dev) (n : Nat) (x : SemRing) (node party : Nat) : Dev :=
  let had := d.semR n
  let d := d.setSemR n x
  match d.claimOf n with
  | some c =>
    if node = d.rg.nodeId ∧ party = c.party.code then (d.dropClaim n).tellParty c.party 14 else d
  | none =>
    match x.party with
    | some y =>
      if x.node = d.rg.nodeId ∧ node = d.rg.nodeId ∧ ¬ (had.party = some y ∧ had.node = x.node) then
        (d.setSemR n { x with party := none, node := 0, broken := false }).sendRelease
          [wd (n + 16 * y.code), 0#14, 0#14, 0#14]
      else d
    | none => d

/-- The anchor answers with the state after an action (R416). -/
def Dev.answerState (d : Dev) (n node party : Nat) : Dev :=
  let x := d.semR n
  (d.originate .semstate 0 true false (semstateWords n x node party)).takeState n x node party

/-- The anchor takes a claim (R416). -/
def Dev.anchorClaim (d : Dev) (n node party : Nat) : Dev :=
  let x := d.semR n
  let d := if x.party = none then d.setSemR n { x with node := node, party := Party.ofCode party } else d
  d.answerState n node party

/-- The anchor takes a release, from the owner alone (R417). -/
def Dev.anchorRelease (d : Dev) (n node party : Nat) (broken : Bool) : Dev :=
  let x := d.semR n
  if x.party.isSome ∧ partyNo x.party = party ∧ x.node = node then
    (d.setSemR n { node := 0, party := none, broken := broken }).answerState n 0x3FFF 0
  else d

/-- A claim of a party (R249, R251). -/
def Dev.ringClaim (d : Dev) (y : Party) (n : Nat) : Dev :=
  if (d.semR n).party.isSome ∨ (d.claimOf n).isSome then d
  else
    let c : RingClaim := { sem := n, party := y, tick := d.ck.tick, slot := d.ck.slot }
    let d := { d with cm := { d.cm with claims := d.cm.claims ++ [c] } }
    if !d.hasRing then d
    else if d.isAnchor then d.anchorClaim n d.rg.nodeId y.code
    else d.originate .semclaim 0 false false ([wd (n + 16 * y.code)] ++ toWords (d.ck.tick % 2 ^ 28) 2 ++ [0#14])

/-- Send a release to the anchor, or apply it where this node is the anchor (R250, R251). -/
def Dev.ringFree (d : Dev) (y : Party) (n : Nat) (broken : Bool) : Dev :=
  if !d.hasRing then d.setSemR n { broken := broken }
  else if d.isAnchor then d.anchorRelease n d.rg.nodeId y.code broken
  else
    (d.setSemR n { broken := broken }).sendRelease [wd (n + 16 * y.code + 64 * b2n broken), 0#14, 0#14, 0#14]

/-- The word shows the party of this node as owner. -/
def Dev.ringOwns (d : Dev) (y : Party) (n : Nat) : Bool :=
  let x := d.semR n
  (x.party == some y) && decide (x.node = d.rg.nodeId)

/-- A release of a party (R250). -/
def Dev.ringRelease (d : Dev) (y : Party) (n : Nat) : Dev :=
  if d.ringOwns y n then d.ringFree y n false
  else { d with cm := { d.cm with badRel := satInc 14 d.cm.badRel } }

/-- A claim without an answer within 2 ticks ends (R249). -/
def Dev.ringTimeout (d : Dev) (n : Nat) : Dev :=
  match d.claimOf n with
  | some c =>
    if c.tick + 2 < d.ck.tick ∨ (c.tick + 2 = d.ck.tick ∧ c.slot ≤ d.ck.slot) then
      { d.dropClaim n with cm := { (d.dropClaim n).cm with ringTo := satInc 14 d.cm.ringTo } }
    else d
  | none => d

/-- As its own anchor the device resolves every claim at the next tick boundary (R251). -/
def Dev.resolveClaims (d : Dev) : Dev :=
  if d.hasRing then d
  else
    let cs := d.cm.claims
    cs.foldl (fun d c =>
      let x := d.semR c.sem
      let d := if x.party = none then d.setSemR c.sem { x with node := 0, party := some c.party } else d
      (d.dropClaim c.sem).tellParty c.party 14) d

/-- Release every ring semaphore of a reset party, broken and counted (R252). -/
def Dev.semRingReset (d : Dev) (y : Party) : Dev :=
  ((List.range 16).filter fun n => d.ringOwns y n).foldl (fun d n =>
    let e := d.ringFree y n true
    { e with cm := { e.cm with rstRel := satInc 14 e.cm.rstRel } }) d

end Sys2Proof.Machine
end

