-- ==== Sys2Proof/Machine/Registers.lean ====
section
/-!
DEFINITION. The control window: what each register word reads as, what a party's write of it does, the snapshots of R8 and
the gathered words of R9 (chapters 00 and 19, and each owning chapter's register table).
-/
namespace Sys2Proof.Machine
open Sys2Proof

/-! ### Reading -/

/-- A two's complement field of `n` bits. -/
def twos (n : Nat) (v : Int) : Nat := (v % (2 ^ n : Int)).toNat

/-- DEV_MODE (R155). -/
def Dev.regMode (d : Dev) : Nat :=
  d.pw.mode.code + 16 * d.pw.prevMode.code + 256 * d.pw.limpCause + 4096 * d.pw.wakeFail

/-- PFAIL# counts as asserted: the pin, a lost clock, the TEST ball (R499, R500). -/
def Dev.pfail (d : Dev) : Bool := d.pw.pfailPin || d.pw.clockLost || d.pw.testHigh

/-- ON counts as high (R500). -/
def Dev.on (d : Dev) : Bool := d.pw.onPin && !d.pw.testHigh

/-- ON as the core sees it: the played level in a replay (R479). -/
def Dev.onSeen (d : Dev) : Bool :=
  match d.lb.replay with
  | some r => if d.pw.mode = .replay then r.on else d.on
  | none => d.on

/-- DEV_PWR (R155). -/
def Dev.regPwr (d : Dev) : Nat :=
  b2n d.onSeen + 2 * b2n d.pfail + 4 * b2n d.pw.offLatched + 8 * b2n d.pw.onLatched + 16 * b2n d.pw.inh
    + 32 * b2n d.pw.limpPin + 64 * b2n d.pw.sleepPending + 128 * d.pw.wakeSrc.code
    + 1024 * (match d.pw.wakePort with | .a => 0 | .b => 1) + 2048 * b2n d.pw.shortPath

/-- DEV_PSTAT (R292). Whether a pilot once woken still runs is the firmware's affair: a free value. -/
def Dev.regPstat (d : Dev) : Nat :=
  let busy := d.pl.cmdA.isSome || d.pl.cmdB.isSome
  let st := if d.pl.locked then 2 else b2n (busy || (d.pl.woken && Config.pilotStill d.now))
  st + 4 * b2n (d.lacksCode .a) + 8 * b2n (d.lacksCode .b) + 16 * b2n d.pl.nonce.isSome + 32 * d.pl.inbox.length

/-- The pending ring claims (R254). -/
def Dev.ringPend (d : Dev) : Nat := (d.cm.claims.map fun c => 2 ^ c.sem).sum

/-- A port's two configuration fields in one word (R186). -/
def PortSt.pcfg (p : PortSt) : Nat := p.clock + 256 * b2n p.oneS

/-- The filtered FRZ pair's code (R464). -/
def PairState.code : PairState → Nat
  | .idle => 0
  | .trig => 1
  | .bad => 2

/-- Words 0x1F0000 to 0x1F003F. Until LOAD ends the DEV_CFG registers hold their reset values (R125). -/
def Dev.regDev0 (d : Dev) (o : Nat) : Nat :=
  if o = 0 then 0x0E14
  else if o = 1 then 0x00B0
  else if o ≤ 5 then field Config.uid.toNat (14 * (o - 2)) 14
  else if o = 0x20 then
    if d.cf.loaded then
      d.cf.copySel + 4 * b2n d.cf.fallback + 8 * d.cf.read.proto + 32 * d.cf.cfClk + 128 * b2n d.cf.sfdpOk
        + 256 * b2n Config.ownerHash.isSome
    else 3
  else if o = 0x21 then (if d.cf.loaded then d.cf.rsnA else 0x3FFF)
  else if o = 0x22 then (if d.cf.loaded then d.cf.rsnB else 0x3FFF)
  else if 0x23 ≤ o ∧ o ≤ 0x25 then field d.cf.seq (14 * (o - 0x23)) 14
  else if 0x26 ≤ o ∧ o ≤ 0x28 then field d.cf.crc (14 * (o - 0x26)) 14
  else if o = 0x29 then d.cf.updState + 4 * d.cf.updTarget + 8 * (match d.cf.updOwner with | .a => 0 | .b => 1)
  else if o = 0x2A then d.cf.rsnU
  else if o = 0x30 then d.regMode
  else if o = 0x31 then d.regPwr
  else if o = 0x32 then d.pw.wakeEnSh
  else if o = 0x33 then d.pw.wakeTmrSh
  else if o = 0x34 then d.pw.wakeFails
  else if o = 0x35 then d.pw.bootT
  else 0

/-- Words 0x1F0040 to 0x1F03FF. -/
def Dev.regDev1 (d : Dev) (o : Nat) : Nat :=
  if o = 0x40 then d.pa.pcfg
  else if o = 0x41 then d.pb.pcfg
  else if o = 0x42 then d.pa.wrCode
  else if o = 0x43 then d.pb.wrCode
  else if o = 0x44 then d.pa.coll
  else if o = 0x45 then d.pb.coll
  else if o = 0x46 then d.pa.badCmd
  else if o = 0x47 then d.pb.badCmd
  else if o = 0x48 then d.pa.prst
  else if o = 0x49 then d.pb.prst
  else if o = 0x50 then d.cm.badRel
  else if o = 0x51 then d.cm.rstRel
  else if o = 0x52 then field d.ringPend 0 14
  else if o = 0x53 then field d.ringPend 14 2
  else if o = 0x54 then d.cm.ringTo
  else if o = 0x60 then d.regPstat
  else if o = 0x61 then d.pl.gateRef
  else if o = 0x62 then d.pl.svcFail
  else if o = 0x63 then d.pl.peerDrop
  else if o = 0x70 then d.hn.lockViol
  else if o = 0x71 then d.hn.credStall
  else if o = 0x72 then d.hn.credWho
  else if o = 0x80 then d.hn.pins.wake.cls + 8 * b2n d.hn.pins.wake.fault + 16 * d.hn.pins.wakeRatio
  else if o = 0x81 then d.hn.pins.vbats.cls + 8 * b2n d.hn.pins.vbats.fault
  else if o = 0x82 then twos 14 d.hn.pins.volts
  else if o = 0x83 then d.hn.pins.frzP.cls + 8 * d.hn.pins.frzN.cls + 64 * PairState.code d.hn.pins.pair + 256 * b2n d.hn.pins.frzFault
  else if o = 0x84 then d.hn.filtSh
  else if o = 0x85 then d.hn.faults
  else if o = 0x86 then d.hn.frzBad
  else if o = 0xA0 then d.hn.auditTick
  else if o = 0xA1 then field d.hn.auditFail 0 14
  else if o = 0xA2 then field d.hn.auditFail 14 7
  else if o = 0xA3 then d.hn.auditSum
  else if o = 0xA4 then d.hn.auditFails
  else if 0xC0 ≤ o ∧ o ≤ 0xE9 then (d.hn.audit.getD (o - 0xC0) 0#14).toNat
  else 0

/-- Words of the TT region (R83). -/
def Dev.regTt (d : Dev) (o : Nat) : Nat :=
  if o ≤ 3 then field d.ck.tick (14 * o) 14
  else if o ≤ 5 then field d.ck.slot (14 * (o - 4)) 14
  else if o ≤ 7 then field d.ck.lenReg (14 * (o - 6)) 14
  else if o ≤ 9 then field d.ck.curLen (14 * (o - 8)) 14
  else if o = 0x0A then d.ck.source + 4 * b2n d.ck.tickOut
  else if o = 0x0B then d.ck.slip
  else if o = 0x0C then d.ck.refLoss
  else if o = 0x0D then d.ck.intakeLead
  else if o ≤ 0x0F then field d.ck.deadline (14 * (o - 0x0E)) 14
  else if o = 0x10 then d.ck.active.code + 4 * b2n d.ck.holdover
  else if o = 0x11 then twos 14 d.ck.phase
  else if o = 0x12 then d.ck.refMiss
  else if o = 0x13 then d.ck.clamped
  else if o = 0x14 then d.ck.overruns
  else if o = 0x15 then d.ck.ovrOwner + 16 * d.ck.ovrEntry + 4096 * d.ck.ovrTt
  else if o = 0x16 then d.ck.swFrom + 4 * d.ck.swTo
  else if o ≤ 0x18 then field d.ck.swSlot (14 * (o - 0x17)) 14
  else if o ≤ 0x1C then field d.ck.swTick (14 * (o - 0x19)) 14
  else 0

/-- An error log entry as four words (R212). -/
def ErrEntry.words (e : ErrEntry) : List Word :=
  [wordOf e.addr 0, wd (field e.addr 14 7 + 128 * e.owner + 2048 * e.kind.code),
   wd (e.syndrome + 32 * b2n e.parity + 64 * e.locus.code + 512 * e.repeats), wd e.tick]

/-- Words of the ECC and SCR region (R219). -/
def Dev.regEcc (d : Dev) (o : Nat) : Nat :=
  if o = 0 then d.ar.rateSh
  else if o = 1 then d.ar.limit
  else if o = 2 then b2n d.ar.stripeEn
  else if o ≤ 0x0A then field (d.scrubBank ((o - 3) / 2)).bptr (14 * ((o - 3) % 2)) 14
  else if o = 0x0B then d.ar.sweeps
  else if o = 0x0C then d.ar.scrCorr
  else if o = 0x0D then d.ar.scrUncorr
  else if o = 0x0E then d.ar.suppr
  else if o = 0x0F then d.ar.repDrop
  else if o ≤ 0x11 then field d.ar.stripeAddr (14 * (o - 0x10)) 14
  else if o = 0x12 then
    b2n (match d.ar.stripe with | some j => !j.retire | none => false) + 2 * b2n (decide (d.ar.retState = 1))
      + 4 * d.ar.ranges.length
  else if o = 0x13 then d.ar.stripes
  else if o = 0x14 then d.ar.stripeFail
  else if o = 0x20 then d.ar.corr
  else if o = 0x21 then d.ar.uncorr
  else if o = 0x22 then d.pa.mAband
  else if o = 0x23 then d.pb.mAband
  else if o = 0x24 then d.pa.mEvict
  else if o = 0x25 then d.pb.mEvict
  else if o = 0x26 then d.pa.merge.length + 16 * d.pb.merge.length
  else if o = 0x27 then d.ar.spares.getD 0 0 + 16 * d.ar.spares.getD 1 0
  else if o = 0x28 then d.ar.spares.getD 2 0 + 16 * d.ar.spares.getD 3 0
  else if o = 0x29 then (d.ar.bankRet.map fun b => 2 ^ b).sum
  else if o = 0x2A then d.ar.retState
  else if o = 0x2B then d.ar.retPage
  else if o = 0x2C then d.pa.mRefuse
  else if o = 0x2D then d.pb.mRefuse
  else if o = 0x30 then d.ar.logHead + 64 * b2n d.ar.logWrapped
  else if o = 0x31 then d.ar.logOvw
  else if o = 0x38 then b2n d.ar.rawEn
  else if o = 0x39 ∨ o = 0x3A then field d.ar.rawAddr (14 * (o - 0x39)) 14
  else if o = 0x3B then d.ar.rawData
  else if o = 0x3C then d.ar.rawChk
  else if o = 0x3E then b2n d.ar.rawOp.isSome + 2 * d.ar.rawResult
  else if 0x40 ≤ o ∧ o ≤ 0x5F then
    (d.ar.retMap.getD (o - 0x40) {}).page + 8192 * b2n (d.ar.retMap.getD (o - 0x40) {}).inUse
  else if 0x100 ≤ o ∧ o ≤ 0x1FF then
    match d.ar.log.getD ((o - 0x100) / 4) none with
    | some e => (e.words.getD ((o - 0x100) % 4) 0#14).toNat
    | none => 0
  else 0

/-- Pages of a persistent hold that the dirty-page book holds; 0 for any other hold (R58). -/
def Dev.holdDirty (d : Dev) (n : Nat) : Nat :=
  if (d.hold n).persistent then (d.kl.pages.filter fun r => d.holdOf r.page == some n).length else 0

/-- The append pointer that the registers show: 0 for a hold that is not append-only (R58). -/
def Hold.shownAppend (h : Hold) : Nat := if h.policy = .append then h.append else 0

/-- Words of the hold registers (R58). -/
def Dev.regHold (d : Dev) (n o : Nat) : Nat :=
  let h := d.hold n
  if o = 0 then h.base
  else if o = 1 then h.pages
  else if o = 2 then h.attr
  else if o = 3 then field h.shownAppend 0 14
  else if o = 4 then field h.shownAppend 14 14
  else if o = 5 then d.holdDirty n
  else if o = 6 then h.refused
  else 0

/-- Store counts of all physical pages that have one. -/
def Dev.counts (d : Dev) : List Nat := d.kl.phys.map fun x => x.2.count

/-- The valid map copy with the higher sequence, once FILL has read the map (R239, R243). -/
def Dev.knownMap (d : Dev) : Option (Nat × MapCopy) := if d.kl.known then d.validMap else none

/-- Words of the KEEL registers (R243). -/
def Dev.regKeel (d : Dev) (o : Nat) : Nat :=
  if o = 0 then d.kl.budget
  else if o = 1 then d.kl.pages.length
  else if o = 2 then d.kl.overdraft
  else if o = 3 then d.kl.refused
  else if o = 4 then d.kl.overs
  else if o = 5 then d.kl.storeRef
  else if o = 6 then
    (if d.pw.mode = .store then 2 else if d.pw.retainEntry then 3 else if 0 < d.inFlight ∨ d.kl.commit.isSome then 1 else 0)
      + 4 * b2n d.kl.commit.isSome + 8 * d.inFlight + 64 * ((d.knownMap.map Prod.fst).getD 0)
  else if 7 ≤ o ∧ o ≤ 0x17 ∧ ¬ (0x0A ≤ o ∧ o ≤ 0x0C) ∧ d.kl.known = false then 0
  else if o = 7 then d.freePages.length
  else if o = 8 then d.badPages
  else if o = 9 then d.kl.stale.length
  else if o = 0x0A then d.kl.poolWaits
  else if o = 0x0B then d.kl.recallErr
  else if o = 0x0C then d.kl.storeUs
  else if o ≤ 0x10 then field ((d.knownMap.map fun m => m.2.seq).getD 0) (14 * (o - 0x0D)) (if o = 0x10 then 6 else 14)
  else if o ≤ 0x13 then field d.counts.sum (14 * (o - 0x11)) 14
  else if o ≤ 0x15 then field (d.counts.foldl max 0) (14 * (o - 0x14)) 14
  else if o ≤ 0x17 then field (d.wearRange).2 (14 * (o - 0x16)) 14
  else if o ≤ 0x19 then field d.kl.lastCmt (14 * (o - 0x18)) 14
  else 0

/-- A local semaphore's word (R254). -/
def SemLocal.word (x : SemLocal) : Nat :=
  partyNo x.owner + 8 * b2n x.wantA + 16 * b2n x.wantB + 32 * b2n x.wantP + 64 * b2n x.broken

/-- A ring semaphore's word (R254). -/
def SemRing.word (x : SemRing) : Nat := x.node + 1024 * partyNo x.party + 4096 * b2n x.broken

/-- A bit register of the sources (R317). -/
def Dev.srcBits (d : Dev) (w : Nat) (f : Source → Bool) : Nat :=
  ((wordSources w).map fun n => b2n (f (d.src n)) * 2 ^ (n % 14)).sum

/-- The queue a suffix names (R317). -/
def queueNo : Nat → Party
  | 0 => .portA
  | 1 => .portB
  | _ => .pilot

/-- Words of the EVC region (R317); EVC_CLAIM is read through `Dev.claim`. -/
def Dev.regEvc (d : Dev) (o : Nat) : Nat :=
  if o ≤ 4 then d.srcBits o Source.pend
  else if o ≤ 9 then d.srcBits (o - 5) Source.maskSh
  else if o ≤ 0x0E then d.srcBits (o - 10) Source.active
  else if o = 0x11 then d.ev.badComp
  else if o = 0x12 then d.ev.spur
  else if 0x13 ≤ o ∧ o ≤ 0x15 then (d.evq (queueNo (o - 0x13))).ovf
  else if 0x16 ≤ o ∧ o ≤ 0x18 then (d.evq (queueNo (o - 0x16))).wr
  else if 0x19 ≤ o ∧ o ≤ 0x1B then (d.evq (queueNo (o - 0x19))).rd
  else if 0x1C ≤ o ∧ o ≤ 0x1E then (d.evq (queueNo (o - 0x1C))).cnt
  else if 0x80 ≤ o ∧ o ≤ 0xBF then (d.src (o - 0x80)).targets + 8 * partyNo (d.src (o - 0x80)).owner
  else if 0xC0 ≤ o ∧ o ≤ 0xFF then (d.src (o - 0xC0)).lost
  else 0

/-- Words of a packer channel (R352). -/
def PkrChan.reg (c : PkrChan) (o : Nat) : Nat :=
  if o = 0 then c.desc
  else if o = 1 then c.next
  else if o = 2 then b2n c.arm + 2 * b2n c.fresh
  else if o = 3 then c.miss
  else if o = 4 then c.trunc
  else if o = 5 then c.lost
  else if o = 6 then c.ringcut
  else c.staged

/-- Words of the PKR region (R352); the packer does not run in STORE (R349). -/
def Dev.regPkr (d : Dev) (o : Nat) : Nat :=
  if o = 0 then d.pk.nCh + 32 * b2n d.pk.descA + 64 * b2n d.pk.descB
  else if o = 1 then d.pk.pre
  else if o = 2 then d.pk.post
  else if o = 3 then d.pk.sealedHold
  else if o ≤ 5 then field d.pk.intake (14 * (o - 4)) 14
  else if o = 6 then d.pk.frzLen
  else if o = 7 then (if d.pw.mode = .store then 0 else d.pk.state)
  else if 0x10 ≤ o ∧ o ≤ 0x8F then (d.pkr ((o - 0x10) / 8)).reg ((o - 0x10) % 8)
  else 0

/-- The first addresses of the guest tally slots (R376): 8 to a page, from page 1 of the tally-backing hold. -/
def Dev.tallyGuests (d : Dev) : List Nat :=
  match d.tallyHold with
  | some h => (List.range (8 * (h.pages - 1))).map fun i => 1024 * (h.base + 1) + 128 * i
  | none => []

/-- The stored data bits of a word, read aside from the checker. -/
def Dev.peek (d : Dev) (a : Nat) : Word := (d.checkAt a).data

/-- The guest slots of the guest hold (R411): their first addresses. -/
def Dev.guestSlots (d : Dev) : List Nat :=
  let h := d.hold d.rg.guestHold
  if d.rg.guestEn ∧ 0 < d.rg.gWords then
    (List.range (1024 * h.pages / d.rg.gWords)).map fun i => 1024 * h.base + i * d.rg.gWords
  else []

/-- Words of the KST and TLY region (R378). -/
def Dev.regKst (d : Dev) (o : Nat) : Nat :=
  if o = 0 then d.ks.slots
  else if o ≤ 2 then field d.ks.wRec (14 * (o - 1)) 14
  else if o ≤ 4 then field d.ks.nextSeq (14 * (o - 3)) 14
  else if o = 5 then
    b2n (match d.ks.active with | some (.record _) => true | _ => false) + 2 * d.ks.queue.length
      + 16 * (d.ks.held.length % 16)
  else if o = 6 then d.ks.sealedCnt
  else if o = 7 then d.ks.mismatch
  else if o = 8 then d.ks.repaired
  else if o = 9 then d.ks.noSlot
  else if o = 0x0A then d.ks.overwritten
  else if o = 0x0B then d.ks.audit
  else if 0x40 ≤ o ∧ o ≤ 0x4F then
    let t := d.ks.tallies.getD (o - 0x40) {}
    b2n t.declared + 2 * b2n t.portA + 4 * b2n t.portB + 8 * b2n t.broken + 16 * b2n t.worn
  else if o = 0x50 then (d.tallyGuests.filter fun a => d.peek a == 0x1A7E#14).length
  else if o = 0x51 then d.ks.guestRej
  else 0

/-- The word of a link (R422). -/
def LinkSt.word (x : LinkSt) : Nat := x.state.code + 8 * b2n x.polInv

/-- Words of the RNG region (R422, R445). -/
def Dev.regRng (d : Dev) (o : Nat) : Nat :=
  if o = 0 then
    d.rg.nodeId + 1024 * b2n d.rg.numbered + 2048 * b2n (d.isAnchor && !d.rg.conflict) + 4096 * b2n d.rg.swapped
      + 8192 * b2n (!d.rg.breaks.isEmpty)
  else if o = 1 then (if d.rg.mapped then d.ringCount else 0)
  else if o = 2 then d.rg.dMax
  else if o = 3 then d.rg.uMin
  else if o = 4 then d.rg.enumNo
  else if o = 5 then b2n d.rg.conflict + 2 * b2n d.rg.teamShort
  else if o = 6 then d.rg.up.word
  else if o = 7 then d.rg.dn.word
  else if o = 8 then d.rg.up.dly
  else if o = 9 then d.rg.dn.dly
  else if o ≤ 0x0B then field d.rg.kdly (14 * (o - 0x0A)) 14
  else if o ≤ 0x0D then field d.rg.rt (14 * (o - 0x0C)) 14
  else if o = 0x10 then d.rg.retxUp
  else if o = 0x11 then d.rg.retxDn
  else if o = 0x12 then d.rg.retrains
  else if o = 0x13 then d.rg.crcErr
  else if o = 0x14 then d.rg.malform
  else if o = 0x15 then d.rg.stalls
  else if o = 0x16 then d.rg.dropHop
  else if o = 0x17 then d.rg.mkBad
  else if o = 0x18 then d.rg.mkLate
  else if o = 0x19 then d.rg.tickSet
  else if o = 0x1A then d.rg.repRetry
  else if o = 0x1B then d.rg.repRej
  else if o = 0x1C then d.rg.semStale
  else if o = 0x1D then (d.guestSlots.filter fun a => (d.peek (a + 3)).toNat % 4 == 2).length
  else if 0x20 ≤ o ∧ o ≤ 0x27 then
    match d.rg.breaks[o - 0x20]? with
    | some u => u + 1024
    | none => 0
  else if o = 0x30 then b2n d.rg.cfgAnchor + 2 * d.rg.guestHold + 32 * b2n d.rg.guestEn
  else if o = 0x31 ∨ o = 0x32 then field d.rg.gWords (14 * (o - 0x31)) 14
  else if o = 0x40 then b2n d.rg.needASh
  else if o = 0x41 then b2n d.rg.needBSh
  else if o = 0x42 then d.rg.why
  else if o = 0x43 ∨ o = 0x44 then field d.rg.tLast (14 * (o - 0x43)) 14
  else if o = 0x45 then b2n d.rg.agreed + 2 * b2n d.rg.up.asleep + 4 * b2n d.rg.dn.asleep
  else if o = 0x46 then d.rg.keepMs
  else if o = 0x47 then d.rg.sleepMs
  else if o = 0x48 then d.rg.wakeMs
  else if o = 0x49 then d.rg.keepRx
  else if o = 0x4A then d.rg.beacons
  else 0

/-- Words of the LOG region (R485). -/
def Dev.regLog (d : Dev) (o : Nat) : Nat :=
  if o = 0 then b2n d.lb.scopeSh + 2 * b2n d.lb.enableSh
  else if o = 1 then d.lb.keepSh
  else if 2 ≤ o ∧ o ≤ 4 then field ((d.lb.entries.head?.map LogEntry.tick).getD 0) (14 * (o - 2)) 14
  else if o = 5 then d.lb.dropped
  else if o = 6 then d.lb.gaps
  else if o = 7 ∨ o = 8 then field d.lb.digest (14 * (o - 7)) 14
  else if 9 ≤ o ∧ o ≤ 0x0F then
    match d.lb.frozen with
    | some f =>
      if o = 9 then 1 + 2 * b2n f.command
      else if o = 0x0A then f.entries.length
      else if o ≤ 0x0C then field f.seq (14 * (o - 0x0B)) 14
      else field ((f.entries.head?.map LogEntry.tick).getD 0) (14 * (o - 0x0D)) 14
    | none => 0
  else if o = 0x18 then 2 * b2n d.lb.stopOnDiv
  else if o = 0x19 then d.lb.rState + 4 * d.lb.rReason + 32 * b2n d.lb.diverged + 64 * b2n d.lb.spent
  else if 0x1A ≤ o ∧ o ≤ 0x1C then field d.lb.divTick (14 * (o - 0x1A)) 14
  else if o = 0x1D ∨ o = 0x1E then field d.lb.divSlot (14 * (o - 0x1D)) 14
  else if o = 0x1F then d.lb.divKind + 4 * b2n d.lb.divPort
  else if o = 0x20 then d.lb.divTicks
  else if o = 0x21 then d.lb.benchErr
  else 0

/-- Words of the lifeboat frame (R291). -/
def Lifeboat.reg (b : Lifeboat) (o : Nat) : Nat :=
  if o = 0 then b.cause + 4 * b.vector
  else if o ≤ 2 then field b.pc (14 * (o - 1)) 14
  else if o ≤ 4 then field b.sp (14 * (o - 3)) 14
  else if o = 5 then b.tick % 16384
  else 0

/-- The current value of a control-window word, as a party sees it; reserved addresses read 0 (R17, R486). -/
def Dev.regNow (d : Dev) (y : Party) (a : Nat) : Word :=
  if a < 0x1F0000 then 0#14
  else if a < 0x1F0040 then wd (d.regDev0 (a - 0x1F0000))
  else if a < 0x1F0400 then wd (d.regDev1 (a - 0x1F0000))
  else if a < 0x1F0800 then wd (d.regTt (a - 0x1F0400))
  else if a < 0x1F0C00 then wd (d.regEcc (a - 0x1F0800))
  else if a < 0x1F0C80 then wd (d.regHold ((a - 0x1F0C00) / 8) ((a - 0x1F0C00) % 8))
  else if a < 0x1F1000 then wd (d.regKeel (a - 0x1F0C80))
  else if a < 0x1F1040 then wd (d.semL (a - 0x1F1000)).word
  else if 0x1F1080 ≤ a ∧ a < 0x1F1090 then wd (d.semR (a - 0x1F1080)).word
  else if 0x1F1400 ≤ a ∧ a < 0x1F1800 then wd (d.regEvc (a - 0x1F1400))
  else if 0x1F1800 ≤ a ∧ a < 0x1F1C00 then wd (d.regPkr (a - 0x1F1800))
  else if 0x1F1C00 ≤ a ∧ a < 0x1F2000 then wd (d.regKst (a - 0x1F1C00))
  else if 0x1F2000 ≤ a ∧ a < 0x1F2400 then wd (d.regRng (a - 0x1F2000))
  else if 0x1F2400 ≤ a ∧ a < 0x1F2800 then wd (d.regLog (a - 0x1F2400))
  else if 0x1F8000 ≤ a ∧ a < 0x1F8006 then wd (d.pl.boat.reg (a - 0x1F8000))
  else if 0x1FFE00 ≤ a ∧ a < 0x1FFF80 then d.mbxRead y ((a - 0x1FFE00) / 64) ((a - 0x1FFE00) % 64)
  else if a = 0x1FFFF0 then d.summary .a
  else if a = 0x1FFFF1 then d.summary .b
  else 0#14

/-- The multi-word read-only values of the window: word 0 and the number of words (R7, R8); an entry of the error log is one
(R219). -/
def multiValues : List (Nat × Nat) :=
  [(0x1F0002, 4), (0x1F0023, 3), (0x1F0026, 3), (0x1F0052, 2), (0x1F00A1, 2), (0x1F0400, 4), (0x1F0404, 2),
   (0x1F0408, 2), (0x1F040E, 2), (0x1F0417, 2), (0x1F0419, 4), (0x1F0803, 2), (0x1F0805, 2), (0x1F0807, 2),
   (0x1F0809, 2), (0x1F0810, 2), (0x1F0C8D, 4), (0x1F0C91, 3), (0x1F0C94, 2), (0x1F0C96, 2), (0x1F0C98, 2)] ++
  ((List.range 16).map fun n => (0x1F0C03 + 8 * n, 2)) ++ ((List.range 64).map fun i => (0x1F0900 + 4 * i, 4)) ++
  [(0x1F1C01, 2), (0x1F1C03, 2), (0x1F200A, 2), (0x1F200C, 2), (0x1F2043, 2), (0x1F2402, 3), (0x1F2407, 2),
   (0x1F240B, 2), (0x1F240D, 3), (0x1F241A, 3), (0x1F241D, 2), (0x1F8001, 2), (0x1F8003, 2)]

/-- A read of word 0 of a multi-word value captures the whole of it for the party (R8). -/
def Dev.snapshot (d : Dev) (y : Party) (a n : Nat) : Dev :=
  let ws := (List.range n).map fun i => d.regNow y (a + i)
  d.modParty y fun p => { p with snaps := assocSet p.snaps a ws }

/-- A read of a control-window word by a party (R8): word 0 captures; a higher word comes from the party's snapshot. -/
def Dev.regRead (d : Dev) (y : Party) (a : Nat) : Dev × Word :=
  match multiValues.find? fun m => decide (m.1 ≤ a) && decide (a < m.1 + m.2) with
  | some (b, n) =>
    if a = b then (d.snapshot y b n, d.regNow y a)
    else match assoc (d.party y).snaps b with
      | some ws => (d, ws.getD (a - b) 0#14)
      | none => (d, d.regNow y a)
  | none => (d, d.regNow y a)

/-! ### Locked fields (R11, R13) -/

/-- The holds that the configuration declares as it stands (R56, R57): those with pages, and those that the image lists. -/
def Dev.declaredHolds (d : Dev) : List Hold :=
  ((List.range 16).filter fun n => d.holdListed n || decide (0 < (d.hold n).pages)).map d.hold

/-- The conditions of the load-time checks that involve the tick's length (R13): reasons 0x0033, 0x0034, 0x0035, 0x0037, 0x0092,
0x0093 and 0x0095. -/
def Dev.lengthOk (d : Dev) : Bool :=
  let a := d.ck.lenReg - d.ck.slip
  let b := d.ck.lenReg + d.ck.slip
  !lengthBad d.ck.lenReg d.ck.slip && decide (d.ck.intakeLead < a) && !rangesBad a d.cf.run d.cf.hold d.cf.store
    && !overlapsBad a b d.cf.run d.cf.hold d.cf.store && !ordersBad a b d.cf.run d.cf.hold d.cf.store
    && !scrubBad d.cf.run a d.ar.limit && !budgetBad d.cf.run a d.kl.budget d.cf.persistRate d.declaredHolds
    && !hopBad d.cf.ringNodes d.cf.ringHop a

/-- The sealed hold of a configuration with channels takes its records (reason 0x0096). -/
def Dev.recordsOk (d : Dev) : Bool := !recordSpaceBad (d.hold d.pk.sealedHold) d.pk.nCh d.pk.pre d.pk.post

/-- The packer's intake words lie where R351 allows them. -/
def Dev.intakeOk (d : Dev) : Bool := intakePlaceOk d.declaredHolds d.pk.intake d.pk.nCh

/-- The guest hold is as R420 asks. -/
def Dev.guestOk (d : Dev) : Bool := !guestBad d.ar.holds d.rg.guestHold d.rg.guestEn d.pk.sealedHold d.rg.gWords

/-- Every tally is as R368 asks. -/
def Dev.talliesOk (d : Dev) : Bool := d.ks.tallies.all fun t => !tallyBad d.declaredHolds t.declared t.portA t.portB

/-- The conditions that involve a hold's registers (R13): reasons 0x0022 and 0x0024 to 0x0029, 0x0061, 0x0093, 0x0095, and, where
the configuration has channels, 0x0051 and 0x0096. -/
def Dev.holdsOk (d : Dev) : Bool :=
  let hs := d.declaredHolds
  (d.ar.holds.all fun h => decide (h.rope ≤ 4)) && decide (firstReason (holdsReasons hs) = 0) && d.guestOk && d.talliesOk
    && !budgetBad d.cf.run (d.ck.lenReg - d.ck.slip) d.kl.budget d.cf.persistRate hs && !ropesBad d.cf.ringNodes hs
    && (decide (d.pk.nCh = 0) || (d.intakeOk && d.recordsOk))

/-- The configuration as it stands passes each condition of a load-time check that involves the locked word at an address (R13;
that the conditions of a check are judged one by one is DEDUCED, log entry 93). -/
def Dev.configOk (d : Dev) (a : Nat) : Bool :=
  let lmin := d.ck.lenReg - d.ck.slip
  if a = 0x1F0406 ∨ a = 0x1F040B then d.lengthOk
  else if a = 0x1F040A then decide (d.ck.source ≠ 3) && !tickPinBad d.ck.source d.ck.tickOut
    && !(d.rg.cfgAnchor && decide (d.ck.source = 2)) && !markerBad d.cf.ringNodes d.ck.source
  else if a = 0x1F040C then decide (d.ck.refLoss ≠ 0)
  else if a = 0x1F040D then decide (d.ck.intakeLead ≠ 0) && decide (d.ck.intakeLead < lmin)
    && !intakeBad d.ck.intakeLead d.cf.run && !intakeBad d.ck.intakeLead d.cf.hold
  else if a = 0x1F0801 then !scrubBad d.cf.run lmin d.ar.limit
  else if a < 0x1F0C80 then d.holdsOk
  else if a = 0x1F0C80 then !budgetBad d.cf.run lmin d.kl.budget d.cf.persistRate d.declaredHolds
    && !holdupBad d.kl.budget d.cf.holdupUs
  else if a < 0x1F14C0 then !targetBad (a - 0x1F1480) (d.ev.srcs.getD (a - 0x1F1480) {}).targets
  else if a = 0x1F1800 then decide (0 < d.pk.nCh) && decide (d.pk.nCh ≤ 16)
    && ((d.pk.chans.take d.pk.nCh).all fun c => descOk c.desc) && d.intakeOk && d.recordsOk
  else if a = 0x1F1801 then decide (0 < d.pk.pre) && decide (d.pk.pre ≤ 15872) && d.recordsOk
  else if a = 0x1F1802 then decide (0 < d.pk.post) && d.recordsOk
  else if a = 0x1F1803 then d.recordsOk && d.guestOk
  else if a = 0x1F1804 then d.intakeOk
  else if a < 0x1F1C50 then d.talliesOk
  else if a = 0x1F2030 then !(d.rg.cfgAnchor && decide (d.ck.source = 2)) && d.guestOk
  else if a = 0x1F2031 then d.guestOk
  else !keepBad d.rg.keepMs d.rg.sleepMs d.rg.wakeMs

/-- Set a hold's attributes (R58). -/
def Hold.setAttr (h : Hold) (v : Nat) : Hold :=
  { h with persistent := bit v 0, policy := Policy.ofCode (field v 1 2), sealed := bit v 3, rope := field v 4 3,
           writeA := bit v 7, writeB := bit v 8 }

/-- A locked word with a new value (R11): the device with it, if the address names one. -/
def Dev.lkSet (d : Dev) (a v : Nat) : Option Dev :=
  if a = 0x1F0406 then some { d with ck := { d.ck with lenReg := v % 1048576 } }
  else if a = 0x1F040A then some { d with ck := { d.ck with source := v % 4, tickOut := bit v 2 } }
  else if a = 0x1F040B then some { d with ck := { d.ck with slip := v % 8192 } }
  else if a = 0x1F040C then some { d with ck := { d.ck with refLoss := v % 256 } }
  else if a = 0x1F040D then some { d with ck := { d.ck with intakeLead := v } }
  else if a = 0x1F0801 then some { d with ar := { d.ar with limit := v % 8192 } }
  else if 0x1F0C00 ≤ a ∧ a < 0x1F0C80 ∧ a % 8 = 0 then
    some { d with ar := { d.ar with holds := d.ar.holds.modify ((a - 0x1F0C00) / 8) fun h => { h with base := v % 2048 } } }
  else if 0x1F0C00 ≤ a ∧ a < 0x1F0C80 ∧ a % 8 = 1 then
    some { d with ar := { d.ar with holds := d.ar.holds.modify ((a - 0x1F0C00) / 8) fun h => { h with pages := v % 2048 } } }
  else if 0x1F0C00 ≤ a ∧ a < 0x1F0C80 ∧ a % 8 = 2 then
    some { d with ar := { d.ar with holds := d.ar.holds.modify ((a - 0x1F0C00) / 8) fun h => h.setAttr v } }
  else if a = 0x1F0C80 then
    let n := v % 1024
    let held := d.kl.pages.length
    some { d with kl := { d.kl with budget := n, overdraft := held - n, free := n - held } }
  else if 0x1F1480 ≤ a ∧ a < 0x1F14C0 then some (d.modSrc (a - 0x1F1480) fun s => { s with targets := v % 8 })
  else if a = 0x1F1800 then some { d with pk := { d.pk with nCh := v % 32, descA := bit v 5, descB := bit v 6 } }
  else if a = 0x1F1801 then some { d with pk := { d.pk with pre := v } }
  else if a = 0x1F1802 then some { d with pk := { d.pk with post := v } }
  else if a = 0x1F1803 then some { d with pk := { d.pk with sealedHold := v % 16 } }
  else if a = 0x1F1804 then some { d with pk := { d.pk with intake := v % 2097152 } }
  else if 0x1F1C40 ≤ a ∧ a < 0x1F1C50 then
    some { d with ks := { d.ks with tallies := d.ks.tallies.modify (a - 0x1F1C40) fun t =>
      { t with declared := bit v 0, portA := bit v 1, portB := bit v 2 } } }
  else if a = 0x1F2030 then
    some { d with rg := { d.rg with cfgAnchor := bit v 0, guestHold := field v 1 4, guestEn := bit v 5 } }
  else if a = 0x1F2031 then some { d with rg := { d.rg with gWords := v % 2097152 } }
  else if a = 0x1F2046 then some { d with rg := { d.rg with keepMs := v % 1024 } }
  else if a = 0x1F2047 then some { d with rg := { d.rg with sleepMs := v } }
  else if a = 0x1F2048 then some { d with rg := { d.rg with wakeMs := v % 1024 } }
  else none

/-- The multi-word writable values: word 0 of each; every one has two words (R9). -/
def gatherBase (a : Nat) : Option Nat :=
  if a = 0x1F0406 ∨ a = 0x1F0407 then some 0x1F0406
  else if a = 0x1F1804 ∨ a = 0x1F1805 then some 0x1F1804
  else if a = 0x1F2031 ∨ a = 0x1F2032 then some 0x1F2031
  else if a = 0x1F0839 ∨ a = 0x1F083A then some 0x1F0839
  else if 0x1F0C00 ≤ a ∧ a < 0x1F0C80 ∧ (a % 8 = 3 ∨ a % 8 = 4) then some (a - a % 8 + 3)
  else none

/-- The address holds a locked field. -/
def isLocked (d : Dev) (a : Nat) : Bool := (d.lkSet ((gatherBase a).getD a) 0).isSome

/-- A value takes effect: the pilot's write of a locked field where the configuration still passes the checks that involve it
(R13); none where it is ignored. -/
def Dev.lkTake (d : Dev) (a v : Nat) : Option Dev := (d.lkSet a v).filter fun e => e.configOk a

/-- The pilot's write of a locked field (R13). -/
def Dev.lkWrite (d : Dev) (a v : Nat) : Dev := (d.lkTake a v).getD d

/-! ### Writing -/

/-- Change a port's counter. -/
def Dev.clearPort (d : Dev) (p : Port) (f : PortSt → PortSt) : Dev := d.modPort p f

/-- A write of 0x0000 clears a SAT counter of the DEV region (R11). -/
def Dev.satDev (d : Dev) (o : Nat) : Dev :=
  if o = 0x34 then { d with pw := { d.pw with wakeFails := 0 } }
  else if o = 0x44 then d.modPort .a fun x => { x with coll := 0 }
  else if o = 0x45 then d.modPort .b fun x => { x with coll := 0 }
  else if o = 0x46 then d.modPort .a fun x => { x with badCmd := 0 }
  else if o = 0x47 then d.modPort .b fun x => { x with badCmd := 0 }
  else if o = 0x48 then d.modPort .a fun x => { x with prst := 0 }
  else if o = 0x49 then d.modPort .b fun x => { x with prst := 0 }
  else if o = 0x50 then { d with cm := { d.cm with badRel := 0 } }
  else if o = 0x51 then { d with cm := { d.cm with rstRel := 0 } }
  else if o = 0x54 then { d with cm := { d.cm with ringTo := 0 } }
  else if o = 0x61 then { d with pl := { d.pl with gateRef := 0 } }
  else if o = 0x62 then { d with pl := { d.pl with svcFail := 0 } }
  else if o = 0x63 then { d with pl := { d.pl with peerDrop := 0 } }
  else if o = 0x70 then { d with hn := { d.hn with lockViol := 0 } }
  else if o = 0x71 then { d with hn := { d.hn with credStall := 0 } }
  else if o = 0x85 then { d with hn := { d.hn with faults := 0 } }
  else if o = 0x86 then { d with hn := { d.hn with frzBad := 0 } }
  else if o = 0xA4 then { d with hn := { d.hn with auditFails := 0 } }
  else d

/-- A write of the DEV region. -/
def Dev.writeDev (d : Dev) (o : Nat) (v : Word) : Dev :=
  if o = 0x32 then { d with pw := { d.pw with wakeEnSh := v.toNat % 64 } }
  else if o = 0x33 then { d with pw := { d.pw with wakeTmrSh := v.toNat } }
  else if o = 0x84 then
    let f := v.toNat % 16
    if 1 ≤ f ∧ f ≤ 8 then { d with hn := { d.hn with filtSh := f } } else d
  else if v = 0#14 then d.satDev o
  else d

/-- A write of the TT region: its SAT counters. -/
def Dev.writeTt (d : Dev) (o : Nat) (v : Word) : Dev :=
  if v ≠ 0#14 then d
  else if o = 0x12 then { d with ck := { d.ck with refMiss := 0 } }
  else if o = 0x13 then { d with ck := { d.ck with clamped := 0 } }
  else if o = 0x14 then { d with ck := { d.ck with overruns := 0 } }
  else d

/-- A write of 0x0000 clears a SAT counter of the ECC and SCR region. -/
def Dev.satEcc (d : Dev) (o : Nat) : Dev :=
  if o = 0x0B then { d with ar := { d.ar with sweeps := 0 } }
  else if o = 0x0C then { d with ar := { d.ar with scrCorr := 0 } }
  else if o = 0x0D then { d with ar := { d.ar with scrUncorr := 0 } }
  else if o = 0x0E then { d with ar := { d.ar with suppr := 0 } }
  else if o = 0x0F then { d with ar := { d.ar with repDrop := 0 } }
  else if o = 0x13 then { d with ar := { d.ar with stripes := 0 } }
  else if o = 0x14 then { d with ar := { d.ar with stripeFail := 0 } }
  else if o = 0x20 then { d with ar := { d.ar with corr := 0 } }
  else if o = 0x21 then { d with ar := { d.ar with uncorr := 0 } }
  else if o = 0x22 then d.modPort .a fun x => { x with mAband := 0 }
  else if o = 0x23 then d.modPort .b fun x => { x with mAband := 0 }
  else if o = 0x24 then d.modPort .a fun x => { x with mEvict := 0 }
  else if o = 0x25 then d.modPort .b fun x => { x with mEvict := 0 }
  else if o = 0x2C then d.modPort .a fun x => { x with mRefuse := 0 }
  else if o = 0x2D then d.modPort .b fun x => { x with mRefuse := 0 }
  else if o = 0x31 then { d with ar := { d.ar with logOvw := 0 } }
  else d

/-- A write of ECC_RAW_CMD (R217). -/
def Dev.rawCmd (d : Dev) (v : Word) : Dev :=
  match v.toNat % 4 with
  | 1 => d.rawStart .read
  | 2 => d.rawStart .write
  | 3 => d.rawStart .check
  | _ => d

/-- A write of the ECC and SCR region (R219). -/
def Dev.writeEcc (d : Dev) (o : Nat) (v : Word) : Dev :=
  if o = 0 then d.rateWrite v
  else if o = 2 then { d with ar := { d.ar with stripeEn := bit v.toNat 0 } }
  else if o = 0x32 then d.logClear v
  else if o = 0x38 then d.testWrite v
  else if o = 0x3B then { d with ar := { d.ar with rawData := v.toNat } }
  else if o = 0x3C then { d with ar := { d.ar with rawChk := v.toNat % 64 } }
  else if o = 0x3D then d.rawCmd v
  else if v = 0#14 then d.satEcc o
  else d

/-- A write of 0x0000 clears a SAT counter of the HLD and KEEL region. -/
def Dev.satHold (d : Dev) (o : Nat) : Dev :=
  if o < 0x80 ∧ o % 8 = 6 then
    { d with ar := { d.ar with holds := d.ar.holds.modify (o / 8) fun h => { h with refused := 0 } } }
  else if o = 0x83 then { d with kl := { d.kl with refused := 0 } }
  else if o = 0x84 then { d with kl := { d.kl with overs := 0 } }
  else if o = 0x85 then { d with kl := { d.kl with storeRef := 0 } }
  else if o = 0x8A then { d with kl := { d.kl with poolWaits := 0 } }
  else if o = 0x8B then { d with kl := { d.kl with recallErr := 0 } }
  else d

/-- A write of the EVC region (R317). -/
def Dev.writeEvc (d : Dev) (y : Party) (o : Nat) (v : Word) : Dev :=
  if o ≤ 4 then d.pendWrite o v
  else if o ≤ 9 then d.maskWrite (o - 5) v
  else if o = 0x10 then d.complete y v
  else if o = 0x11 ∧ v = 0#14 then { d with ev := { d.ev with badComp := 0 } }
  else if o = 0x12 ∧ v = 0#14 then { d with ev := { d.ev with spur := 0 } }
  else if 0x13 ≤ o ∧ o ≤ 0x15 ∧ v = 0#14 then d.modEvq (queueNo (o - 0x13)) fun q => { q with ovf := 0 }
  else if 0x19 ≤ o ∧ o ≤ 0x1B then d.qrdWrite y (queueNo (o - 0x19)) v
  else if 0xC0 ≤ o ∧ o ≤ 0xFF ∧ v.toNat % 256 = 0 then d.modSrc (o - 0xC0) fun s => { s with lost := 0 }
  else d

/-- A write of a packer channel's words (R352). -/
def Dev.writePkr (d : Dev) (y : Party) (o : Nat) (v : Word) : Dev :=
  if o < 0x10 ∨ 0x90 ≤ o then d
  else
    let c := (o - 0x10) / 8
    let k := (o - 0x10) % 8
    if k = 1 then d.nextWrite y c v
    else if k = 2 then d.armWrite y c v
    else if v ≠ 0#14 then d
    else if k = 3 then d.modPkr c fun x => { x with miss := 0 }
    else if k = 4 then d.modPkr c fun x => { x with trunc := 0 }
    else if k = 5 then d.modPkr c fun x => { x with lost := 0 }
    else if k = 6 then d.modPkr c fun x => { x with ringcut := 0 }
    else d

/-- A write of 0x0000 clears a SAT counter of the KST and TLY region. -/
def Dev.satKst (d : Dev) (o : Nat) : Dev :=
  if o = 6 then { d with ks := { d.ks with sealedCnt := 0 } }
  else if o = 7 then { d with ks := { d.ks with mismatch := 0 } }
  else if o = 8 then { d with ks := { d.ks with repaired := 0 } }
  else if o = 9 then { d with ks := { d.ks with noSlot := 0 } }
  else if o = 0x0A then { d with ks := { d.ks with overwritten := 0 } }
  else if o = 0x51 then { d with ks := { d.ks with guestRej := 0 } }
  else d

/-- A write of 0x0000 clears a SAT counter of the RNG region. -/
def Dev.satRng (d : Dev) (o : Nat) : Dev :=
  if o = 0x10 then { d with rg := { d.rg with retxUp := 0 } }
  else if o = 0x11 then { d with rg := { d.rg with retxDn := 0 } }
  else if o = 0x12 then { d with rg := { d.rg with retrains := 0 } }
  else if o = 0x13 then { d with rg := { d.rg with crcErr := 0 } }
  else if o = 0x14 then { d with rg := { d.rg with malform := 0 } }
  else if o = 0x15 then { d with rg := { d.rg with stalls := 0 } }
  else if o = 0x16 then { d with rg := { d.rg with dropHop := 0 } }
  else if o = 0x17 then { d with rg := { d.rg with mkBad := 0 } }
  else if o = 0x18 then { d with rg := { d.rg with mkLate := 0 } }
  else if o = 0x19 then { d with rg := { d.rg with tickSet := 0 } }
  else if o = 0x1A then { d with rg := { d.rg with repRetry := 0 } }
  else if o = 0x1B then { d with rg := { d.rg with repRej := 0 } }
  else if o = 0x1C then { d with rg := { d.rg with semStale := 0 } }
  else if o = 0x49 then { d with rg := { d.rg with keepRx := 0 } }
  else if o = 0x4A then { d with rg := { d.rg with beacons := 0 } }
  else d

/-- A write of the RNG region; a need flag belongs to its own port (R424, R445). -/
def Dev.writeRng (d : Dev) (y : Party) (o : Nat) (v : Word) : Dev :=
  if o = 0x40 then (if y = .portA then { d with rg := { d.rg with needASh := bit v.toNat 0 } } else d)
  else if o = 0x41 then (if y = .portB then { d with rg := { d.rg with needBSh := bit v.toNat 0 } } else d)
  else if v = 0#14 then d.satRng o
  else d

/-- A write of LOG_RCTL (R481, R482). -/
def Dev.rctlWrite (d : Dev) (v : Word) : Dev :=
  let stop : Replay → Replay := fun r =>
    if bit v.toNat 0 && r.stopReason.isNone then { r with stopReason := some 5 } else r
  { d with lb := { d.lb with stopOnDiv := bit v.toNat 1, replay := d.lb.replay.map stop } }

/-- A write of the LOG region (R485). In a replay the control word takes live writes alone (R480, R482). -/
def Dev.writeLog (d : Dev) (o : Nat) (v : Word) : Dev :=
  if o = 0 then { d with lb := { d.lb with scopeSh := bit v.toNat 0, enableSh := bit v.toNat 1 } }
  else if o = 1 then (if v.toNat % 4096 = 0 then d else { d with lb := { d.lb with keepSh := v.toNat % 4096 } })
  else if o = 0x18 then (if d.pw.mode = .replay then d else d.rctlWrite v)
  else if o = 5 ∧ v = 0#14 then { d with lb := { d.lb with dropped := 0 } }
  else if o = 6 ∧ v = 0#14 then { d with lb := { d.lb with gaps := 0 } }
  else if o = 0x20 ∧ v = 0#14 then { d with lb := { d.lb with divTicks := 0 } }
  else if o = 0x21 ∧ v = 0#14 then { d with lb := { d.lb with benchErr := 0 } }
  else d

/-- A write of a local semaphore's word: req in bit 2 (R245, R246, R254). -/
def Dev.semWrite (d : Dev) (y : Party) (n : Nat) (v : Word) : Dev :=
  if bit v.toNat 2 then d.semClaim y n else d.semRelease y n

/-- A write of a ring semaphore's word: req in bit 13 (R249, R250, R254). -/
def Dev.ringWrite' (d : Dev) (y : Party) (n : Nat) (v : Word) : Dev :=
  if bit v.toNat 13 then d.ringClaim y n else d.ringRelease y n

/-- A write of one control-window word by a party, where it is neither locked nor part of a multi-word value. -/
def Dev.writePlain (d : Dev) (y : Party) (a : Nat) (v : Word) : Dev :=
  if a < 0x1F0400 then d.writeDev (a - 0x1F0000) v
  else if a < 0x1F0800 then d.writeTt (a - 0x1F0400) v
  else if a < 0x1F0C00 then d.writeEcc (a - 0x1F0800) v
  else if a < 0x1F1000 then (if v = 0#14 then d.satHold (a - 0x1F0C00) else d)
  else if a < 0x1F1040 then d.semWrite y (a - 0x1F1000) v
  else if 0x1F1080 ≤ a ∧ a < 0x1F1090 then d.ringWrite' y (a - 0x1F1080) v
  else if 0x1F1400 ≤ a ∧ a < 0x1F1800 then d.writeEvc y (a - 0x1F1400) v
  else if 0x1F1800 ≤ a ∧ a < 0x1F1C00 then d.writePkr y (a - 0x1F1800) v
  else if 0x1F1C00 ≤ a ∧ a < 0x1F2000 then (if v = 0#14 then d.satKst (a - 0x1F1C00) else d)
  else if 0x1F2000 ≤ a ∧ a < 0x1F2400 then d.writeRng y (a - 0x1F2000) v
  else if 0x1F2400 ≤ a ∧ a < 0x1F2800 then d.writeLog (a - 0x1F2400) v
  else if 0x1FFE00 ≤ a ∧ a < 0x1FFF80 then d.mbxWrite y ((a - 0x1FFE00) / 64) ((a - 0x1FFE00) % 64) v
  else d

/-- The value of a multi-word value, gathered by a party, with its highest word just written (R9). -/
def Dev.gathered (d : Dev) (y : Party) (b : Nat) (v : Word) : Nat :=
  let lo := match assoc (d.party y).gather b with
    | some w => w
    | none => d.regNow y b
  lo.toNat + 16384 * v.toNat

/-- A multi-word value takes effect (R9, R13, R50, R217); none where it is ignored. -/
def Dev.takeValue (d : Dev) (b v : Nat) : Option Dev :=
  if b = 0x1F0839 then some { d with ar := { d.ar with rawAddr := v % 2097152 } }
  else if 0x1F0C00 ≤ b ∧ b < 0x1F0C80 then
    let n := (b - 0x1F0C00) / 8
    if d.appendOk n v then some (d.appendWrite n v) else none
  else d.lkTake b v

/-- A write of a word of a multi-word value (R9): with the highest word the value takes effect, and what the party has gathered of it
is used up; a value that is ignored has not taken effect, and leaves it. -/
def Dev.gatherWrite (d : Dev) (y : Party) (b a : Nat) (v : Word) : Dev :=
  if a = b then d.modParty y fun p => { p with gather := assocSet p.gather b v }
  else match d.takeValue b (d.gathered y b v) with
    | some e => e.modParty y fun p => { p with gather := p.gather.filter fun g => g.1 != b }
    | none => d

/-- A write of a control-window word by a party (R9, R11, R13). A port's write of a locked field is ignored and counted; the
append pointer is the pilot's alone. -/
def Dev.regWrite (d : Dev) (y : Party) (a : Nat) (v : Word) : Dev :=
  if isLocked d a then
    if y = .pilot then
      match gatherBase a with
      | some b => d.gatherWrite y b a v
      | none => d.lkWrite a v.toNat
    else d.lockViol
  else match gatherBase a with
    | some b => if b = 0x1F0839 ∨ y = .pilot then d.gatherWrite y b a v else d
    | none => d.writePlain y a v

end Sys2Proof.Machine
end

