-- ==== Sys2Proof/Machine/Update.lean ====
section
/-!
DEFINITION. Image updates (R118 to R122). The flash is outside the device: what it reports arrives as operands, and
`Cfg.flash` holds the last command issued to it.
-/
namespace Sys2Proof.Machine
open Sys2Proof

/-- The slot that is not running; copy A under the harbour image (R118). -/
def Dev.updateTarget (d : Dev) : CopyId := if d.cf.copySel = 0 then .copyB else .copyA

/-- The copy of DEV_CFG_UPD.target. -/
def Dev.targetCopy (d : Dev) : CopyId := if d.cf.updTarget = 1 then .copyB else .copyA

/-- The port has an open update (R118). -/
def Dev.updateOpen (d : Dev) (p : Port) : Bool := (d.cf.updState == 1) && decide (d.cf.updOwner = p)

/-- A command of an update that lacks its return code ends with a code; one that the pilot has not taken yet leaves its queue with it
(DEDUCED, log entry 39). -/
def Dev.endUpdateCmd (d : Dev) (p : Port) (code : Nat) : Dev :=
  match d.cmd p with
  | some c =>
    if 0x0030 ≤ c.op ∧ c.op ≤ 0x0032 then
      (if c.phase = .admitted then d.mbxTake (pilotChan p) else d).finish p code
    else d
  | none => d

/-- An open update is abandoned (R122). -/
def Dev.closeUpdate (d : Dev) : Dev :=
  if d.cf.updState = 1 then
    { d with cf := { d.cf with updState := 3, updErasing := false, updCommitting := false } }
  else d

/-- A reset of the owning port abandons its update; its command in progress receives 0x3FF6 (R122). -/
def Dev.abandonUpdate (d : Dev) (p : Port) : Dev :=
  if d.updateOpen p then d.closeUpdate.endUpdateCmd p 0x3FF6 else d

/-- BEGIN (R118, R119). A flash without SFDP is answered before an exhausted sequence (R121 gives no order: DESIGN CHOICE, log entry 95).
The command of another port whose update it abandons receives 0x0101 (DEDUCED, log entry 33). -/
def Dev.updateBegin (d : Dev) (p : Port) : Dev :=
  if !d.cf.sfdpOk then d.finish p 0x0105
  else if d.cf.copySel ≠ 2 ∧ d.cf.seq = 0xFFFFFFFE then d.finish p 0x0104
  else
    let d := if d.updateOpen p.other then d.closeUpdate.endUpdateCmd p.other 0x0101 else d
    let t := d.updateTarget
    { d with cf := { d.cf with updState := 1, updTarget := copyCode t, updOwner := p, updErasing := true, updSent := 0,
                               updHead := [], updCommitting := false, flash := .erase t } }.setStarted p

/-- The erase ends, and the pilot replies to BEGIN (R119). An erase that failed leaves no update open: state 11 (DESIGN CHOICE, log entry
95). -/
def Dev.eraseDone (d : Dev) (ok : Bool) : Dev :=
  if d.cf.updErasing && (d.cf.updState == 1) then
    let p := d.cf.updOwner
    let d := { d with cf := { d.cf with updErasing := false, updState := if ok then 1 else 3 } }
    d.finishIf p 0x0030 (if ok then 0 else 0x0105)
  else d

/-- The byte at an offset is one of the last 4 of the copy whose header has been sent (R119). -/
def heldBack (head : List Byte) (off : Nat) : Bool :=
  decide (hdrLen head ≤ off + 4) && decide (off < hdrLen head)

/-- The first 16 bytes with some more bytes sent. -/
def headWith (head bs : List Byte) : List Byte := (head ++ bs).take 16

/-- DATA (R119, R120). Code 0x0102 is answered before 0x0103 (R121 gives no order: DESIGN CHOICE, log entry 95). -/
def Dev.updateData (d : Dev) (p : Port) (c : Cmd) (ok : Bool) : Dev :=
  let off := c.value 1 2 % 524288
  let n := c.word 3
  if !d.updateOpen p then d.finish p 0x0101
  else if off ≠ d.cf.updSent ∨ n = 0 ∨ 21 < n then d.finish p 0x0102
  else if 524288 < off + n then d.finish p 0x0103
  else
    let bs := (unpackGroups 3 (c.words.drop 4)).take n
    let head := headWith d.cf.updHead bs
    let placed := List.zipWith (fun i b => (off + i, b)) (List.range bs.length) bs
    let sent := if head.length < 16 then placed else placed.filter fun b => !heldBack head b.1
    let d := { d with cf := { d.cf with flash := .program d.targetCopy sent } }
    if ok then { d with cf := { d.cf with updSent := off + n, updHead := head } }.finish p 0
    else d.finish p 0x0105

/-- COMMIT begins: the target slot is read back (R119). -/
def Dev.updateCommit (d : Dev) (p : Port) : Dev :=
  if !d.updateOpen p then d.finish p 0x0101
  else { d with cf := { d.cf with updCommitting := true } }.setStarted p

/-- The sequence of a new copy (R118). -/
def Dev.seqFits (d : Dev) (seq : Nat) : Bool :=
  if d.cf.copySel = 2 then decide (seq ≠ 0xFFFFFFFF) else decide (seq = d.cf.seq + 1)

/-- COMMIT ends: the checks of R99 but reason 0x0007, then the sequence, then the magic (R119; the order is DEDUCED, log entry
34). -/
def Dev.commitDone (d : Dev) (readback : List Byte) (ok : Bool) : Dev :=
  if d.cf.updCommitting && (d.cf.updState == 1) then
    let p := d.cf.updOwner
    let r := copyReason readback true
    let d := { d with cf := { d.cf with updCommitting := false } }
    let fail := fun (d : Dev) (code : Nat) => { d with cf := { d.cf with updState := 3 } }.finishIf p 0x0032 code
    if r ≠ 0 then fail { d with cf := { d.cf with rsnU := r } } 0x0106
    else if !d.seqFits (hdrSeq readback) then fail d 0x0104
    else
      let d := { d with cf := { d.cf with flash := .magic d.targetCopy } }
      if ok then { d with cf := { d.cf with updState := 2 } }.finishIf p 0x0032 0 else fail d 0x0105
  else d

end Sys2Proof.Machine
end

