-- ==== Sys2Proof/Machine/Ports.lean ====
section
/-!
DEFINITION. The host ports: transactions, the words they carry, SFDP, the status answer, resets (chapter 07), with what
the logbook captures of them (R469) and what a replay compares (R481).
-/
namespace Sys2Proof.Machine
open Sys2Proof

/-! ### Divergences of a replay (R481) -/

/-- The played tick has a divergence; the first of the replay sets LOG_DIV and fires REPLAY_DIVERGED. -/
def Dev.diverge (d : Dev) (tick slot kind : Nat) (port : Port) : Dev :=
  match d.lb.replay with
  | none => d
  | some r =>
    let d := if r.divTick then d
      else { d with lb := { d.lb with divTicks := satInc 14 d.lb.divTicks,
                                      replay := some { r with divTick := true } } }
    if d.lb.diverged then d
    else
      let stop : Replay → Replay := fun r =>
        if d.lb.stopOnDiv && r.stopReason.isNone then { r with stopReason := some 7 } else r
      { d with lb := { d.lb with diverged := true, divTick := tick % 2 ^ 42, divSlot := slot, divKind := kind,
                                 divPort := decide (port = Port.b), replay := d.lb.replay.map stop } }.fire 52

/-! ### Words on the wire -/

/-- The number of a port in an output unit (R473). -/
def portNo : Port → Nat
  | .a => 0
  | .b => 1

/-- A driven word forms its output unit (R473), and in a replay is compared with the item played for it (R481). -/
def Dev.formDriven (d : Dev) (p : Port) (v : Driven) : Dev :=
  let s := d.slotAt v.driveAt
  let d := d.emitAt s 1 (portNo p + 2 * v.code) 0 v.data.toNat 0
  match (d.lb.replay.map Replay.expect).getD [] |>.find? fun e => decide (e.port = p) && decide (e.at' = v.driveAt) with
  | some e => if e.data = v.data ∧ e.code = v.code then d else d.diverge d.ck.tick s 1 p
  | none => d

/-- The items of R469 for one word: data, sidebands with the delta and the last flag, and the long delta. -/
def itemWords (data : Word) (code delta : Nat) (last : Bool) : List Word :=
  [data, wd (code + 4 * min delta 2047 + 8192 * b2n last)] ++ (if 2046 < delta then [wd delta] else [])

/-- The item of a driven word; of a word cut short only its low byte has crossed (R164, R469, log entry 88). -/
def Driven.item (v : Driven) : List Word :=
  if v.cut then itemWords (Word.ofHalves v.data.low 0#7) (v.code % 2) v.delta v.last
  else itemWords v.data v.code v.delta v.last

/-- The first byte of a word is driven: its unit, its item, and its touch (R178, R469, R473, R481). -/
def Dev.driveOut (d : Dev) (p : Port) (v : Driven) : Dev :=
  let d := ((d.formDriven p v).captureItem { port := p, addr := v.addr, words := v.item }).driveTouch p v
  d.modPort p fun x => { x with driven := x.driven.map fun u => if u = v then { u with done := true } else u }

/-- The transaction in flight ends (R164): what has not crossed the wire is discarded or abandoned. The words before it stand. -/
def Dev.endTx (d : Dev) (p : Port) : Dev :=
  d.modPort p fun x => { x with
    incoming := x.incoming.filter Incoming.live, rq := [], driven := x.driven.filter Driven.done,
    sfdpOut := x.sfdpOut.filter fun b => decide (b.2 ≤ d.now), touches := x.touches.filter Touch.real }

/-- A transaction begins: the one before it is over, and its RESET ENABLE is cleared (R159, R166). -/
def Dev.beginTx (d : Dev) (p : Port) : Dev :=
  (d.endTx p).modPort p fun x => { x with driven := [], sfdpOut := [], resetEnabled := false }

/-- A transaction begins, and its record is captured (R469). -/
def Dev.openTx (d : Dev) (p : Port) (cmd addr : Nat) (noItems : Bool) : Dev :=
  (d.beginTx p).captureHead p (wd (portKind p + 16 * cmd + 128 * b2n noItems) :: twoWords d.ck.slot ++ twoWords (addr % 2097152))

/-- The word address of a bus byte address (R161). -/
def wordAddr (bus : Nat) : Nat := field bus 1 21

/-- The word address after another in a burst (R163). -/
def nextAddr (a : Nat) : Nat := (a + 1) % 2097152

/-! ### Reads -/

/-- The reads of a burst (R163, R170): addresses in order, each with the slot in which its first byte is driven; CS# may cut the
last of them short (R164). -/
def readItems (a t : Nat) (first cut : Bool) : List Nat → List ReadItem
  | [] => []
  | x :: xs =>
    { addr := a, first := first, driveAt := t + x, delta := x, last := xs.isEmpty, cut := cut && xs.isEmpty }
      :: readItems (nextAddr a) (t + x) false cut xs

/-- A word that is to be driven: data and code as its read gave them. A live word of a replay forms no unit and no item, as if
that had been done. -/
def ReadItem.drive (i : ReadItem) (data : Word) (code slot : Nat) (done : Bool) : Driven :=
  { addr := i.addr, data := data, code := code, slot := slot, driveAt := i.driveAt, delta := i.delta, last := i.last,
    cut := i.cut, done := done }

/-- A word that needs no bank read: it is driven as it stands now. -/
def Dev.driveNow (d : Dev) (p : Port) (live : Bool) (i : ReadItem) (data : Word) (code : Nat) : Dev :=
  d.modPort p fun x => { x with driven := x.driven ++ [i.drive data code d.now (live && (d.pw.mode == .replay))] }

/-- The words that a port may read although the core serves no bank: of the DEV region in TEST (R138), and of the LOG region
as well in REPLAY (R480). -/
def Dev.sideRead (d : Dev) (a : Nat) : Bool :=
  let dev := decide (0x1F0000 ≤ a) && decide (a < 0x1F0040)
  let log := decide (0x1F2400 ≤ a) && decide (a < 0x1F2800)
  match d.pw.mode with
  | .test => dev
  | .replay => dev || log
  | _ => false

/-- A word of a READ where the core does not serve the port: a register's value, or not ready (R138, R154, R171, R480). -/
def Dev.sideWord (d : Dev) (p : Port) (i : ReadItem) : Dev :=
  if d.sideRead i.addr then
    let r := d.regRead p.party i.addr
    r.1.driveNow p true i r.2 0
  else d.driveNow p true i 0#14 3

/-- The port takes transactions: its supply is present and no reset holds it (R183, R503). -/
def Dev.portAlive (d : Dev) (p : Port) : Bool := (d.port p).vddio && (d.port p).ready

/-- A live transaction of a replay begins: the words that have been driven are gone, what the played port does goes on (R480). -/
def Dev.liveTx (d : Dev) (p : Port) : Dev := d.modPort p fun x => { x with driven := x.driven.filter fun v => !v.done }

/-- A READ (R163, R165, R171, R181). -/
def Dev.readTx (d : Dev) (p : Port) (addr : Nat) (deltas : List Nat) (cut : Bool) : Dev :=
  let items := readItems (wordAddr addr) d.now true cut deltas
  if d.portServed p then
    (d.openTx p 0 (wordAddr addr) deltas.isEmpty).modPort p fun x => { x with rq := items }
  else items.foldl (fun d i => d.sideWord p i) (if d.pw.mode = .replay then d.liveTx p else d.beginTx p)

/-- An address of EVC_CLAIM (R306), the one kind of word whose read acts (R171). -/
def isClaim (a : Nat) : Bool := decide (0x1F1440 ≤ a) && decide (a < 0x1F1480)

/-- The value and the code of a burst word, with what reading it does (R39, R40, R170 to R172, R174, R181). -/
def Dev.fetchWord (d : Dev) (p : Port) (i : ReadItem) : Dev × Word × Nat :=
  let a := i.addr
  if a < 0x1E0000 then
    let (d, r) := d.readArr (portCode p) a
    let (d, hit) := d.touch p a false false
    (d, (d.port p).overlay a r.data, if hit then collide r.out.status else r.out.status)
  else if a < 0x1F0000 then (d, 0#14, 0)
  else if isArray a then
    let (d, r) := d.readArr (portCode p) a
    (d, r.data, r.out.status)
  else if isClaim a then
    if i.first then
      let (d, w) := d.claim p.party (a - 0x1F1440)
      (d, w, 0)
    else (d, 0#14, 3)
  else
    let (d, w) := d.regRead p.party a
    (d, w, 0)

/-- The next word of a burst may be read now: every word of the port's earlier transactions has been written, the slot of its bank
is the port's and free, and its first byte is driven at least 64 slots later (R175, R181). -/
def Dev.readDue (d : Dev) (p : Port) (i : ReadItem) : Bool :=
  (d.port p).wq.isEmpty && d.mayUse (portCode p) (bankOf i.addr) && decide (d.now + 64 ≤ i.driveAt)

/-- The next word of a burst is read. -/
def Dev.readNext (d : Dev) (p : Port) : Dev :=
  match (d.port p).rq with
  | i :: rest =>
    if d.readDue p i then
      let d := (d.useBank (bankOf i.addr)).modPort p fun x => { x with rq := rest }
      let (d, w, code) := d.fetchWord p i
      d.modPort p fun x => { x with driven := x.driven ++ [i.drive w code d.now false] }
    else d
  | [] => d

/-- The status answer: DEV_MODE and DEV_PWR in turn, each with code 00 (R154, R165, R185). -/
def Dev.statusItems (d : Dev) (p : Port) (live even : Bool) : List ReadItem → Dev
  | [] => d
  | i :: is => (d.driveNow p live i (wd (if even then d.regMode else d.regPwr)) 0).statusItems p live (!even) is

/-- A READ STATUS. Its words are those of the slot in which CS# falls (DEDUCED, log entry 35). -/
def Dev.statusTx (d : Dev) (p : Port) (deltas : List Nat) (cut : Bool) : Dev :=
  let items := readItems 0 d.now true cut deltas
  let d := if d.pw.mode = .replay then d.liveTx p else d.openTx p 2 0 deltas.isEmpty
  d.statusItems p true true items

/-! ### Writes -/

/-- The words of a WRITE with the slots in which they cross (R163, R470). -/
def writeItems (a t : Nat) (live : Bool) : List WireWord → List Incoming
  | [] => []
  | w :: ws =>
    { addr := a, word := w, at' := t + w.delta, last := ws.isEmpty, live := live }
      :: writeItems (nextAddr a) (t + w.delta) live ws

/-- A full word has arrived: it discards the port's pending halves for its word, and waits for its slot (R173 to R175). -/
def Dev.takeFull (d : Dev) (p : Port) (a at' : Nat) (w : Word) : Dev :=
  let stale : WriteItem → Bool := fun i => match i with
    | .merged b _ => decide (b = a)
    | _ => false
  d.modPort p fun x =>
    let x := if a < 0x1E0000 then { x.dropHalves a with wq := x.wq.filter fun i => !stale i } else x
    { x with wq := x.wq ++ [.full a w at'] }

/-- A word has crossed the wire (R173): full, a lone half, or skipped. -/
def Dev.takeWord (d : Dev) (p : Port) (a at' : Nat) (w : WireWord) : Dev :=
  if w.s0 && w.s1 then d.takeFull p a at' w.data
  else if w.s0 || w.s1 then
    let lo := if w.s0 then some w.data.low else none
    let hi := if w.s1 then some w.data.high else none
    let (d, done) := d.takeHalf p a lo hi
    if done then d.modPort p fun x => { x with wq := x.wq ++ [.merged a at'] } else d
  else d

/-- The last byte of a word crosses: its item is captured (R469, R470), and a whole word acts; one cut short is discarded
(R164). The only live write of a replay is of LOG_RCTL (R480). -/
def Dev.arrive (d : Dev) (p : Port) (i : Incoming) : Dev :=
  let d := d.modPort p fun x => { x with incoming := x.incoming.erase i }
  if i.live then
    if (i.word.whole && i.word.s0 && i.word.s1) && decide (i.addr = 0x1F2418) then d.rctlWrite i.word.data else d
  else
    let side := b2n i.word.s0 + 2 * b2n i.word.s1
    let d := d.captureItem { port := p, addr := i.addr, words := itemWords i.word.data side i.word.delta i.last }
    if i.word.whole then d.takeWord p i.addr i.at' i.word else d

/-- A WRITE (R163, R165, R173). Nothing is written where the core does not serve the port (R138, R185). -/
def Dev.writeTx (d : Dev) (p : Port) (addr : Nat) (words : List WireWord) : Dev :=
  if d.portServed p then
    (d.openTx p 1 (wordAddr addr) words.isEmpty).modPort p fun x =>
      { x with incoming := x.incoming ++ writeItems (wordAddr addr) d.now false words }
  else if d.pw.mode = .replay then
    d.modPort p fun x => { x with incoming := x.incoming ++ writeItems (wordAddr addr) d.now true words }
  else d.beginTx p

/-- The full word whose slot has come is written (R175, R176). -/
def Dev.writeNext (d : Dev) (p : Port) : Dev :=
  match d.dueItem p with
  | some (.full a w t) =>
    let d := d.takeItem p (.full a w t)
    if a < 0x1F0000 then d.portWrite p a w false else d.regWrite p.party a w
  | _ => d

/-- The merge entry whose slot has come commits (R195). -/
def Dev.commitNext (d : Dev) (p : Port) : Dev :=
  match d.dueItem p with
  | some (.merged a t) => (d.takeItem p (.merged a t)).mergeCommit p a
  | _ => d

/-! ### SFDP (R169, R522) -/

/-- The basic table's 16 DWORDs (R522): the density in DWORD 2, the addressing of the port's protocol in DWORD 1, and every other
field the value by which JESD216 says "not supported" (PRESUMED, log entry 36). -/
def basicTable (oneS : Bool) : List Nat :=
  [if oneS then 0xFF80FFE3 else 0xFF84FFE3, 0x01FFFFFF, 0, 0, 0xFFFFFFEE, 0x0000FFFF, 0x0000FFFF, 0, 0, 0, 0x80000000,
   0x80000100, 0, 0x800000F3, 0xFF000000, 0x00000080]

/-- The 256 bytes of the SFDP space of a port. The revision bytes of parameter header 0 are those of the JESD216 header (PRESUMED, log
entry 36); before LOAD has declared a protocol the fields follow the reset value of DEV_PCFG (DESIGN CHOICE, log entry 92). -/
def PortSt.sfdp (x : PortSt) : List Byte :=
  [0x53#8, 0x46#8, 0x44#8, 0x50#8, 0x06#8, 0x01#8, 0x01#8, 0xFF#8,
   0x00#8, 0x06#8, 0x01#8, 0x10#8, 0x30#8, 0x00#8, 0x00#8, 0xFF#8] ++
  [0xB7#8, Config.sfdpFill x.oneS 0, Config.sfdpFill x.oneS 1, 0x04#8, 0x70#8, 0x00#8, 0x00#8, 0xFF#8] ++
  List.replicate 24 0#8 ++ (basicTable x.oneS).flatMap (fun w => toBytes w 4) ++
  toBytes 0x0E14 4 ++ toBytes 0x00B0 4 ++ toBytes x.pcfg 4 ++ toBytes (PortOp.read.dummyClocks x.oneS) 4 ++
  List.replicate 128 0xFF#8

/-- The bytes of a READ SFDP, each with the absolute slot in which it is driven; addresses from 0x100 read 0xFF. -/
def PortSt.sfdpRun (x : PortSt) (addr t : Nat) : List Nat → List (Byte × Nat)
  | [] => []
  | n :: ns => (x.sfdp.getD addr 0xFF#8, t + n) :: x.sfdpRun (addr + 1) (t + n) ns

/-- A READ SFDP. -/
def Dev.sfdpTx (d : Dev) (p : Port) (addr : Nat) (deltas : List Nat) : Dev :=
  if d.pw.mode = .replay then d
  else (d.openTx p 3 addr true).modPort p fun x => { x with sfdpOut := x.sfdpRun addr d.now deltas }

/-! ### Resets and unknown commands (R166, R183 to R185) -/

/-- An unknown command is counted; the responder counts none (R166, R185). -/
def Dev.badCommand (d : Dev) (p : Port) : Dev :=
  if d.pw.mode.responder then d else d.modPort p fun x => { x with badCmd := satInc 14 x.badCmd }

/-- The effects of a port reset (R184, R199, R252, R269, R312, R122). In the modes of the responder it only ends the transaction
(R183). -/
def Dev.portReset (d : Dev) (p : Port) : Dev :=
  let d := (d.endTx p).modPort p fun x => { x with resetDue := none }
  if d.pw.mode.responder then d
  else
    let d := (d.ageAll p).modPort p fun x =>
      { x with resetEnabled := false, wrCode := 0, prst := satInc 14 x.prst, ready := false, resetAt := d.now }
    let d := d.modParty p.party fun y => { y with snaps := [], gather := [] }
    let d := (((d.abandonUpdate p).mbxReset p).semReset p.party).semRingReset p.party
    d.completeAll p.party

/-- The pin code of a port's RST# (R470). -/
def rstPin : Port → Nat
  | .a => 7
  | .b => 8

/-- RST# has been low for 20 slots (R183, R184). In a replay the live pin is ignored (R479). -/
def Dev.rstLowTx (d : Dev) (p : Port) : Dev :=
  if d.pw.mode = .replay then d
  else
    let d := (d.capturePin (rstPin p) 1).modPort p fun x => { x with rstLow := true }
    d.portReset p

/-- The port takes transactions again, 1.000 µs after RST# rose or the RESET PORT ended (R183); the PIN record of the rise
stands at its own slot (R470). -/
def Dev.portReady (d : Dev) (p : Port) : Dev :=
  if (d.port p).resetAt + 1000 ≤ d.now then
    let low := (d.port p).rstLow
    let d := d.modPort p fun x => { x with ready := true, rstLow := false }
    if low then d.capture 5 (d.ck.slot - 1000) (wd (5 + 16 * rstPin p) :: twoWords (d.ck.slot - 1000)) else d
  else d

/-- RESET ENABLE arms the port (R166). -/
def Dev.enableReset (d : Dev) (p : Port) : Dev := (d.openTx p 4 0 true).modPort p fun x => { x with resetEnabled := true }

/-- RESET PORT acts where the port's previous transaction armed it, in the slot in which CS# rises, else it is unknown (R166,
R183). -/
def Dev.resetTx (d : Dev) (p : Port) (rise : Nat) : Dev :=
  let armed := (d.port p).resetEnabled
  let d := d.openTx p 5 0 true
  if armed then d.modPort p fun x => { x with resetDue := some (d.now + rise) } else d.badCommand p

/-- An unknown command (R166). -/
def Dev.unknownTx (d : Dev) (p : Port) : Dev := (d.openTx p 6 0 true).badCommand p

/-- A live transaction of a kind that a replay does not serve (R480). -/
def Dev.unlessReplay (d : Dev) (f : Dev → Dev) : Dev := if d.pw.mode = .replay then d else f d

/-! ### A transaction, from its header -/

/-- What crosses the wire after a header, as far as the command calls for it: the slots between the words or bytes returned, whether
CS# cuts the last word, the words written, and the slots to the rise of CS#. -/
structure Payload where
  deltas : List Nat := []
  cut : Bool := false
  words : List WireWord := []
  rise : Nat := 0
  deriving DecidableEq, Repr

/-- A port samples a transaction in 1S-1S-1S: as the responder always, otherwise where its image declares so (R158, R185). -/
def Dev.wireOneS (d : Dev) (p : Port) : Bool := d.pw.mode.responder || (d.port p).oneS

/-- The code of a command in its record (R469). -/
def logCode : PortOp → Nat
  | .read => 0 | .write => 1 | .readStatus => 2 | .readSfdp => 3 | .resetEnable => 4 | .resetPort => 5

/-- A transaction of a known command with its whole header. -/
def Dev.command (d : Dev) (p : Port) (op : PortOp) (addr : Nat) (x : Payload) : Dev :=
  match op with
  | .read => d.readTx p addr x.deltas x.cut
  | .write => d.writeTx p addr x.words
  | .readStatus => d.statusTx p x.deltas x.cut
  | .readSfdp => d.sfdpTx p addr x.deltas
  | .resetEnable => d.unlessReplay fun d => d.enableReset p
  | .resetPort => d.unlessReplay fun d => d.resetTx p x.rise

/-- CS# falls and a transaction follows: its header, sampled in the port's protocol, says which command it is (R158 to R166). One
that CS# ends before its header is whole has no effect but to begin (DESIGN CHOICE, log entry 91). -/
def Dev.transact (d : Dev) (p : Port) (head : List Byte) (x : Payload) : Dev :=
  if d.portAlive p then
    match decodeHead (d.wireOneS p) head with
    | .whole op addr => d.command p op addr x
    | .unknown => d.unlessReplay fun d => d.unknownTx p
    | .cut op => d.unlessReplay fun d => d.openTx p (logCode op) 0 true
    | .none => d.unlessReplay fun d => d.beginTx p
  else d

end Sys2Proof.Machine
end

