-- ==== Sys2Proof/Machine/Seal.lean ====
section
/-!
DEFINITION. Tallies, the seal engine, the audit and the repair of records (R359 to R366, R369 to R376, R415).
-/
namespace Sys2Proof.Machine
open Sys2Proof

/-! ### Tallies (R369 to R373) -/

/-- A tally. -/
def Dev.tally (d : Dev) (t : Nat) : Tally := d.ks.tallies.getD t {}

/-- Change a tally. -/
def Dev.modTally (d : Dev) (t : Nat) (f : Tally → Tally) : Dev :=
  { d with ks := { d.ks with tallies := d.ks.tallies.modify t f } }

/-- The first address of a tally's block (R369). -/
def Dev.tallyBase (d : Dev) (t : Nat) : Nat := 1024 * ((d.tallyHold.map Hold.base).getD 0) + 64 * t

/-- What a copy's words hold, where the copy is valid: ver, H, L and n_inc (R370). A word is `none` where it does not read
clean or corrected. -/
def tallyCopy (t : Nat) (ws : List (Option Word)) : Option (Nat × Nat × Nat × Nat) :=
  let v := ws.map fun w => w.getD 0#14
  let n := fun i => (v.getD i 0#14).toNat
  let th := ofWords ((v.drop 6).take 5)
  let l := (th + 1).log2
  let zeros := (v.drop 14).take 17
  if ws.all Option.isSome ∧ n 0 = n 31 ∧ n 1 = t ∧ n 5 < 256 ∧ n 10 < 128 ∧ th + 1 = 2 ^ l ∧ l ≤ 63
      ∧ zeros.all fun w => w == 0#14 then
    some (n 0, ofWords ((v.drop 2).take 4), l, ofWords ((v.drop 11).take 3))
  else none

/-- A tally with the values of a copy. -/
def Tally.take (x : Tally) (copy1 : Bool) (c : Nat × Nat × Nat × Nat) : Tally :=
  { x with broken := false, copy1 := copy1, ver := c.1, high := c.2.1, low := c.2.2.1, nInc := c.2.2.2,
           worn := x.worn || decide (1000000000 < c.2.2.2) }

/-- A tally as the 64 words of its block give it (R370). -/
def Tally.decode (x : Tally) (t : Nat) (ws : List (Option Word)) : Tally :=
  if ws.all fun w => w == some 0#14 then x.take false (0, 0, 0, 0)
  else match tallyCopy t (ws.take 32), tallyCopy t (ws.drop 32) with
    | some a, some b => if 64 * a.2.1 + a.2.2.1 < 64 * b.2.1 + b.2.2.1 then x.take true b else x.take false a
    | some a, none => x.take false a
    | none, some b => x.take true b
    | none, none => { x with broken := true }

/-- A word as the checker gives it, if it reads clean or corrected. -/
def Decoded.word (r : Decoded) : Option Word := if r.out = .uncorrectable then none else some r.data

/-- At the end of FILL the pilot reads every declared tally and decodes it (R189, R370). -/
def Dev.decodeTallies (d : Dev) : Dev :=
  (List.range 16).foldl (fun d t =>
    if (d.tally t).declared then
      let (d, rs) := d.readRun 9 (d.tallyBase t) 64
      d.modTally t fun x => x.decode t (rs.map Decoded.word)
    else d) d

/-- The words of a tally copy (R369). -/
def tallyWords (t ver high low nInc : Nat) : List Word :=
  [wd ver, wd t] ++ toWords (high % 2 ^ 50) 4 ++ toWords (2 ^ low - 1) 5 ++ toWords (nInc % 2 ^ 42) 3
    ++ List.replicate 17 0#14 ++ [wd ver]

/-- Write one copy of a tally in the order of R371: word 31, words 1 to 30, word 0. -/
def Dev.writeCopy (d : Dev) (t : Nat) (copy1 : Bool) (ws : List Word) : Dev :=
  let b := d.tallyBase t + 32 * b2n copy1
  let d := d.holdWrite (b + 31) (ws.getD 31 0#14)
  (d.pilotRun (b + 1) ((ws.drop 1).take 30)).holdWrite b (ws.getD 0 0#14)

/-- n_inc passes 10^9: worn is set and TALLY_WEAR fires once (R373). -/
def Dev.noteWear (d : Dev) (t : Nat) : Dev :=
  let x := d.tally t
  if 1000000000 < x.nInc ∧ ¬ x.worn then (d.modTally t fun x => { x with worn := true }).fire 37 else d

/-- The tally takes a value in the copy that is not selected, with the next ver (R371). -/
def Dev.putTally (d : Dev) (t high low nInc : Nat) : Dev :=
  let x := d.tally t
  let ver := (x.ver + 1) % 16384
  let d := d.writeCopy t (!x.copy1) (tallyWords t ver high low nInc)
  d.modTally t fun x => { x with copy1 := !x.copy1, ver := ver, high := high, low := low, nInc := nInc }

/-- The tick in which a port's command was accepted. -/
def Dev.acceptTick (d : Dev) (p : Port) : Nat := ((d.cmd p).map Cmd.acceptTick).getD d.ck.tick

/-- One update of a tally (R371): the increments accepted in earlier ticks, summed; each is answered 0x0000 (R282). -/
def Dev.tallyUpdate (d : Dev) (t : Nat) : Dev :=
  let x := d.tally t
  let due := x.incs.filter fun i => decide (d.acceptTick i.1 < d.ck.tick)
  if due.isEmpty then d
  else
    let l := x.low + (due.map Prod.snd).sum
    let h := if l ≤ 63 then x.high else x.high + l / 64
    let d := d.rereadBlock.putTally t h (if l ≤ 63 then l else l % 64) ((x.nInc + due.length) % 2 ^ 42)
    let d := d.modTally t fun x => { x with incs := x.incs.filter fun i => !due.contains i }
    due.foldl (fun d i => d.finishIf i.1 0x0001 0) (d.noteWear t)

/-! ### Signatures (R359, R360, R374, R483) -/

/-- A signature, r then s, in 37 words. -/
def sigWords (s : Nat × Nat) : List Word := packBytes (toBe s.1 32 ++ toBe s.2 32) 37

/-- Sign words under the device key; the hash is SHA-256 of the words as 16-bit units (R360). -/
def signWords (ws : List Word) : List Word := sigWords (ecdsaSign Config.deviceKey (sha256 (wordsBytes ws)))

/-- The device's public key in 37 words (R375). -/
def keyWords : List Word :=
  let q := publicKey Config.deviceKey
  packBytes (toBe q.1 32 ++ toBe q.2 32) 37

/-- A signature in 37 words verifies over a hash under a key in 37 words. -/
def verifyWords (key sig : List Word) (hash : List Byte) : Bool :=
  let k := unpackBytes key 64
  let s := unpackBytes sig 64
  ecdsaVerify (beBytes (k.take 32)) (beBytes (k.drop 32)) hash (beBytes (s.take 32)) (beBytes (s.drop 32))

/-- Words 0 to 17 of an attestation (R374). -/
def Dev.attestWords (d : Dev) (t value tick nonce : Nat) : List Word :=
  [0x1A7E#14, wd (t + 16 * d.node)] ++ toWords Config.uid.toNat 4 ++ toWords value 4 ++ toWords tick 4
    ++ toWords nonce 4

/-- A replica verifies under the key it carries (R375, R377). -/
def replicaVerifies (ws : List Word) : Bool :=
  (ws.getD 0 0#14 == 0x1A7E#14)
    && verifyWords ((ws.drop 55).take 37) ((ws.drop 18).take 37) (sha256 (wordsBytes (ws.take 18)))

/-- The value a replica carries. -/
def replicaValue (ws : List Word) : Nat := ofWords ((ws.drop 6).take 4)

/-! ### The rope team (R410) -/

/-- The nodes that follow this one downstream: the rope team of the packer's sealed hold. -/
def Dev.team (d : Dev) : List Nat :=
  (List.range (min d.sealedHold.rope (d.ringCount - 1))).map fun i => d.nodeAt (d.ringPos d.rg.nodeId + 1 + i)

/-! ### The seal engine (R360 to R363) -/

/-- The value of a tally in the page copy that the current map covers (R229, R375). -/
def Dev.committedTally (d : Dev) (t : Nat) : Option Nat :=
  let copy := ((d.tallyHold.bind fun h => d.logicalOf h.base).bind fun l => (d.logicalPage l).phys).bind
    fun p => (d.phys p).copy
  copy.bind fun c =>
    let ws := (List.range 64).map fun i =>
      if c.uncorr.contains (64 * t + i) then none else some ((assoc c.data (64 * t + i)).getD 0#14)
    let x := ({} : Tally).decode t ws
    if x.broken then none else some x.value

/-- A replica of the tally is due (R375). -/
def Dev.replicaDue (d : Dev) (t : Nat) : Bool :=
  let x := d.tally t
  let rested := match x.lastReplicaAt with
    | none => true
    | some k => decide (k + 1000000000 ≤ d.now)
  x.declared && !x.broken && decide (x.value ≠ x.lastReplica) && rested && d.originates
    && decide (d.sealedHold.rope ≠ 0) && d.committedTally t == some x.value

/-- Header word 2 takes chain_start and cut_short as they are when hashing begins (R358, R361). -/
def Dev.markChain (d : Dev) (i : Nat) : Dev :=
  let r := d.slotRec i
  let chained := match d.ks.lastSig with
    | some (s, _) => decide (s + 1 = r.seq)
    | none => false
  let (d, w) := d.readNat 4 (d.slotBase i + 2)
  d.writeArr (d.slotBase i + 2) (wd (w - 1024 * field w 10 2 + 1024 * b2n (!chained) + 2048 * b2n r.cutShort))

/-- The engine takes work, and its signature begins to count (R362). -/
def Dev.takeWork (d : Dev) (j : SealJob) : Dev :=
  let d := d.countSign
  { d with ks := { d.ks with active := some j, sigDone := 0 } }

/-- The seal engine runs: its slots and its entries are those of the timetables of RUN and HOLD (R70), and the pilot is not locked. -/
def Dev.sealRuns (d : Dev) : Bool := d.pw.mode.timetabled && !(d.pw.mode == .store) && !d.pl.locked

/-- The engine takes its next work of kinds 1 to 3 (R362); it takes none while the pilot is locked. -/
def Dev.sealTake (d : Dev) : Dev :=
  if d.ks.active.isSome || !d.sealRuns then d
  else match d.ks.attests, d.ks.queue with
    | .attest p ws dest :: as, _ =>
      let d := d.takeWork (.attest p ws dest)
      { d with ks := { d.ks with attests := as } }.pilotRun dest ws
    | _, i :: q =>
      let d := d.takeWork (.record i)
      let d := { d with ks := { d.ks with queue := q } }.modRec i fun r => { r with state := .sealing }
      d.markChain i
    | _, [] =>
      match (List.range 16).find? d.replicaDue with
      | some t => d.takeWork (.replica t (d.attestWords t (d.tally t).value d.ck.tick 0))
      | none => d

/-- The 37 predecessor words of a record's serialisation, where they can be found, and whether one of them reads uncorrectable: zeros
with chain_start, the signature in the engine's working state, or the one in the slot of the record before (R360, R361). -/
def Dev.predecessor (d : Dev) (header2 : Word) (seq : Nat) : Dev × Option (List Word) × Bool :=
  if bit header2.toNat 10 then (d, some (List.replicate 37 0#14), false)
  else match d.ks.lastSig.filter fun s => s.1 + 1 == seq with
    | some (_, ws) => (d, some ws, false)
    | none =>
      let ok : RecSlot → Bool := fun r => r.state.record && decide (r.seq + 1 = seq)
      match (List.range d.ks.slots).find? fun i => ok (d.slotRec i) with
      | some i =>
        let (d, ws, bad) := d.sigOf i
        (d, some ws, bad)
      | none => (d, none, false)

/-- A record is sealed (R362 steps 2 to 5, R363). -/
def Dev.sealRecord (d : Dev) (i : Nat) : Dev :=
  let b := d.slotBase i
  let (d, rs) := d.readRun 4 b (d.ks.wRec - 64)
  let uc := rs.any fun r => r.out == .uncorrectable
  let ws := rs.map Decoded.data
  let seq := (d.slotRec i).seq
  let (d, pre, ucPre) := d.predecessor (ws.getD 2 0#14) seq
  let msg := pre.getD (List.replicate 37 0#14) ++ ws
  let sig := signWords msg
  let d := d.writeRun (d.trailerBase i) (packBytes (sha256 (wordsBytes msg)) 19 ++ sig ++ [0x3A51#14])
  let d := d.modRec i fun r => { r with state := .local', ucSeal := r.ucSeal || uc || ucPre, members := [] }
  { d with ks := { d.ks with lastSig := some (seq, sig), sealedCnt := satInc 14 d.ks.sealedCnt,
                             sealFree := d.ks.sealFree + 1 } }.fire 34

/-- A replica goes to every member of the rope team (R375). -/
def Dev.sendReplica (d : Dev) (t : Nat) (ws : List Word) : Dev :=
  let all := ws ++ signWords ws ++ keyWords
  let d := d.team.foldl (fun d n => d.originate .trep n false false all) d
  d.modTally t fun x => { x with lastReplica := replicaValue ws, lastReplicaAt := some d.now }

/-- The slots of signature slice entries that a signature takes, and a verification (R362, R365). -/
def signSlots : Nat := 2880000
def verifySlots : Nat := 4320000

/-- The last slot of the active work's signature (R362). -/
def Dev.signDue (d : Dev) : Bool := d.ks.active.isSome && decide (signSlots ≤ d.ks.sigDone + d.sliceSlots (d.now + 1))

/-- The engine's work is over: what follows counts from the next slot. -/
def Dev.endWork (d : Dev) : Dev := { d with ks := { d.ks with active := none, sigSince := d.now + 1 } }

/-- A work that has been signed has its effect (R362, R374, R375). -/
def Dev.workDone (d : Dev) : SealJob → Dev
  | .attest p ws dest => (d.pilotRun (dest + 18) (signWords ws)).finishWith p (wd 0x0003 :: twoWords 55) 0
  | .record i => d.sealRecord i
  | .replica t ws => d.sendReplica t ws

/-- The engine's work is signed, and the next is taken (R362). -/
def Dev.sealDone (d : Dev) : Dev :=
  match d.ks.active with
  | some j => if d.signDue then (d.endWork.workDone j).sealTake else d
  | none => d

/-! ### The audit and the repair (R365, R366, R415) -/

/-- A slot the audit visits. -/
def SlotState.audited : SlotState → Bool
  | .local' | .roped | .mismatch => true
  | _ => false

/-- The first slot from a place, in cyclic order, that the audit visits. -/
def Dev.auditFrom (d : Dev) (i : Nat) : Option Nat :=
  ((List.range d.ks.slots).map fun j => (i + j) % d.ks.slots).find? fun j => (d.slotRec j).state.audited

/-- The checks of R365 on a record's hashed words and trailer words. Where the predecessor cannot be found, D cannot be
computed, and the signature is checked over the trailer's D (DEDUCED, log entry 37). -/
def Dev.recordPasses (d : Dev) (ws tr : List Word) : Dev × Bool :=
  let seq := ofWords (ws.take 2)
  let dig := unpackBytes (tr.take 19) 32
  let (d, pre, bad) := d.predecessor (ws.getD 2 0#14) seq
  let fits := match pre with
    | some pre => decide (sha256 (wordsBytes (pre ++ ws)) = dig)
    | none => true
  (d, !bad && fits && (tr.getD 56 0#14 == 0x3A51#14) && verifyWords keyWords ((tr.drop 19).take 37) dig)

/-- Ask a member of the rope team for a record (R415). -/
def Dev.askMember (d : Dev) (slot m : Nat) (digest : Option (List Byte)) : Dev :=
  match d.team[m]? with
  | some n =>
    let d := { d with ks := { d.ks with repair := some { slot := slot, member := m, tick := d.ck.tick,
                                                         digest := digest } } }
    d.originate .query n false false ([0#14] ++ twoWords (d.slotRec slot).seq)
  | none => { d with ks := { d.ks with repair := none } }

/-- The member returned no passing copy: the next one is asked (R366). -/
def Dev.repairNext (d : Dev) : Dev :=
  match d.ks.repair with
  | some r => d.askMember r.slot (r.member + 1) none
  | none => d

/-- A repair begins for a MISMATCH record of a hold with a rope team (R366). -/
def Dev.repairStart (d : Dev) (i : Nat) : Dev :=
  if d.sealedHold.rope = 0 ∨ d.ks.repair.isSome ∨ ¬ d.originates then d else d.askMember i 0 none

/-- A record fails the audit (R365). -/
def Dev.markMismatch (d : Dev) (i : Nat) : Dev :=
  let old := (d.slotRec i).state
  let d := d.modRec i fun r => { r with state := .mismatch }
  let d := { d with ks := { d.ks with before := assocSet d.ks.before i old, mismatch := satInc 14 d.ks.mismatch } }
  (d.fire 36).repairStart i

/-- A record in a slot is verified: every hashed and every trailer word reads clean or corrected, and R365's checks hold. -/
def Dev.verifySlot (d : Dev) (i : Nat) : Dev :=
  let (d, rs) := d.readRun 4 (d.slotBase i) (d.ks.wRec - 64)
  let (d, ts) := d.readRun 4 (d.trailerBase i) 64
  let bad := (rs ++ ts).any fun r => r.out == .uncorrectable
  let (d, ok) := d.recordPasses (rs.map Decoded.data) (ts.map Decoded.data)
  if !bad && ok then d else d.markMismatch i

/-- The last slot of a verification: no other work runs, and the slices it takes have counted (R362, R365). -/
def Dev.verifyDue (d : Dev) : Bool :=
  d.ks.active.isNone && decide (verifySlots ≤ d.ks.auditDone + d.sliceSlots (d.now + 1))

/-- One record's verification ends (R365); a MISMATCH record is requested again (R366). -/
def Dev.auditStep (d : Dev) : Dev :=
  match d.auditFrom d.ks.audit with
  | none => d
  | some i =>
    let d := { d with ks := { d.ks with auditDone := 0, sigSince := d.now + 1 } }
    let d := if (d.slotRec i).state = .mismatch then d.repairStart i else d.verifySlot i
    { d with ks := { d.ks with audit := (d.auditFrom ((i + 1) % d.ks.slots)).getD i } }

/-- The words of a slot that a copy's frame differs in are written, a word that reads uncorrectable among them; the ring engine reads
each, and the state word is the device's own (R189, R366, R415). -/
def Dev.writeDiffs (d : Dev) (slot off : Nat) : List Word → Dev
  | [] => d
  | w :: ws =>
    let a := d.slotBase slot + off
    let d :=
      if off = d.ks.wRec - 64 + 57 then d
      else
        let (d, r) := d.readArr 5 a
        if r.out != .uncorrectable && r.data == w then d else d.writeArr a w
    d.writeDiffs slot (off + 1) ws

/-- The record is repaired (R366). -/
def Dev.repairDone (d : Dev) (slot : Nat) : Dev :=
  let old := (assoc d.ks.before slot).getD .local'
  let d := d.modRec slot fun r => { r with state := old, repaired := true }
  { d with ks := { d.ks with repair := none, repaired := satInc 14 d.ks.repaired,
                             before := d.ks.before.filter fun x => x.1 != slot } }

/-- A frame of a copy that was asked for arrives (R415). -/
def Dev.repairFrame (d : Dev) (src seq index total : Nat) (ws : List Word) : Dev :=
  match d.ks.repair with
  | none => d
  | some r =>
    if d.team[r.member]? ≠ some src ∨ (d.slotRec r.slot).seq ≠ seq ∨ r.next ≠ index
        ∨ (d.slotRec r.slot).state ≠ .mismatch then d
    else
      let part := ws.take (d.ks.wRec - r.words.length)
      let d := if r.digest.isSome then d.writeDiffs r.slot r.words.length part else d
      let r := { r with words := r.words ++ part, next := index + 1 }
      let d := { d with ks := { d.ks with repair := some r } }
      if index + 1 < total then d
      else
        let n := d.ks.wRec - 64
        let dig := sha256 (wordsBytes (r.words.take n))
        match r.digest with
        | none =>
          let (d, ok) := d.recordPasses (r.words.take n) (r.words.drop n)
          if ok then d.askMember r.slot r.member (some dig) else d.repairNext
        | some e => if e = dig then d.repairDone r.slot else { d with ks := { d.ks with repair := none } }

end Sys2Proof.Machine
end

