-- ==== Sys2Proof/Machine/Gate.lean ====
section
/-!
DEFINITION. The command gate, acceptance, the pilot's commands of tallies, records, peers, sleep and service, what an
abandoned command leaves, and pilot faults (chapter 11).
-/
namespace Sys2Proof.Machine
open Sys2Proof

/-! ### The command table (R280) -/

/-- Words of a message by its opcode; `none` for an opcode that the table lacks. PEER_SEND's length follows from n. -/
def cmdLength (op n : Nat) : Option Nat :=
  if op = 0x0001 then some 3
  else if op = 0x0002 ∨ op = 0x0004 ∨ op = 0x0020 ∨ op = 0x0021 then some 2
  else if op = 0x0003 then some 8
  else if op = 0x0010 ∨ op = 0x0030 ∨ op = 0x0032 ∨ op = 0x0050 ∨ op = 0x0061 ∨ op = 0x0070 then some 1
  else if op = 0x0011 then some 7
  else if op = 0x0012 ∨ op = 0x0022 ∨ op = 0x0072 then some 5
  else if op = 0x0031 then some 16
  else if op = 0x0040 then some (3 + n)
  else if op = 0x0060 then some 4
  else if op = 0x0071 then some 6
  else none

/-- Reply words by opcode; ENTER_SERVICE replies in step 0 only. -/
def replyLength (op step : Nat) : Nat :=
  if op = 0x0002 ∨ op = 0x0004 ∨ op = 0x0010 then 5
  else if op = 0x0003 ∨ op = 0x0011 ∨ op = 0x0012 ∨ op = 0x0071 then 3
  else if op = 0x0022 then 9
  else if op = 0x0060 ∧ step = 0 then 5
  else 0

/-- The modes of a command. -/
def cmdModes (op : Nat) : List Mode :=
  if op = 0x0001 ∨ op = 0x0003 ∨ op = 0x0010 ∨ op = 0x0040 ∨ op = 0x0050 then [.run, .hold]
  else if op = 0x0004 ∨ op = 0x0021 ∨ op = 0x0061 ∨ op = 0x0072 then [.service]
  else if op = 0x0030 ∨ op = 0x0031 ∨ op = 0x0032 then [.run, .limp, .service]
  else if op = 0x0060 then [.run, .limp]
  else [.run, .hold, .limp, .service]

/-- The commands that the gate admits under the harbour image. -/
def harbourCmd (op : Nat) : Bool :=
  op == 0x0012 || op == 0x0022 || op == 0x0030 || op == 0x0031 || op == 0x0032 || op == 0x0060 || op == 0x0061

/-- Check 4 of R275. REPLAY refuses every command (R280) but the played RECORD_FREEZE, on which R65 acts (DEDUCED, log entry 40). -/
def Dev.modeAllows (d : Dev) (op : Nat) : Bool :=
  ((cmdModes op).contains d.pw.mode || (d.pw.mode == .replay && op == 0x0010)) && (d.cf.copySel != 2 || harbourCmd op) && !(op == 0x0061 && d.lb.spent)

/-- A channel with notify 10 towards a host holds a message (R262). -/
def Dev.hostWaits (d : Dev) : Bool :=
  [0, 1, 3, 5].any fun k => decide ((d.chan k).notify = 2) && !(d.chan k).queue.isEmpty

/-- Check 5 of R275. -/
def Dev.gateBusy (d : Dev) (op : Nat) : Bool :=
  (op == 0x0022 && decide (2 ≤ d.ar.ranges.length)) || (op == 0x0050 && d.hostWaits)

/-- Free words of a port's return channel that no command reserves. -/
def Dev.returnFree (d : Dev) (p : Port) : Nat :=
  16 - (d.chan (returnChan p)).words - (d.chan (returnChan p)).reserved

/-- Words a command's reply needs. -/
def replyOf (ws : List Word) : Nat := replyLength (ws.getD 0 0#14).toNat ((ws.getD 1 0#14).toNat % 2)

/-- The code of the first check that a message fails, 0 where it passes all (R275). -/
def Dev.gateCode (d : Dev) (p : Port) (ws : List Word) : Nat :=
  let op := (ws.getD 0 0#14).toNat
  let n := (ws.getD 2 0#14).toNat % 16
  match cmdLength op n with
  | none => 0x3FF1
  | some len =>
    if ws.length ≠ len ∨ (op = 0x0040 ∧ (n = 0 ∨ 13 < n)) then 0x3FF2
    else if !d.modeAllows op then 0x3FF3
    else if d.gateBusy op then 0x3FF4
    else if d.returnFree p < replyOf ws then 0x3FF5
    else 0

/-- The slot in which the command at the head of a port's channel became next: that of its POST or, where it waited, that of the
return code before it (R261, R274). -/
def Chan.nextAt (c : Chan) : Nat := max (c.posted.headD 0) c.codeAt

/-- The gate examines a command in the slot in which it becomes next; after a refusal, in the engine's next slot of bank 3 (R275). A
message that found no slot there, for want of a timetable, waits for one too (DEDUCED, log entry 106). -/
def Dev.gateDue (d : Dev) (p : Port) : Bool :=
  let c := d.chan (pilotChan p)
  (c.refusedAt != some d.now) && (decide (c.nextAt = d.now) || d.ownerAt 3 d.ck.slot == 8)

/-- The gate refuses a message (R275). -/
def Dev.gateRefuse (d : Dev) (p : Port) (code : Nat) : Dev :=
  let d := (d.putAck (pilotChan p) (wd code)).mbxTake (pilotChan p)
  let d := d.modChan (pilotChan p) fun c => { c with refusedAt := some d.now }
  { d with pl := { d.pl with gateRef := satInc 14 d.pl.gateRef } }

/-- The gate admits a message (R275). -/
def Dev.gateAdmit (d : Dev) (p : Port) (ws : List Word) : Dev :=
  let r := replyOf ws
  let c : Cmd := { words := ws, phase := .admitted, nextAt := (d.chan (pilotChan p)).nextAt, acceptAt := 0, acceptTick := 0, reserved := r }
  ((d.modChan (returnChan p) fun x => { x with reserved := x.reserved + r }).setCmd p (some c)).wakePilot

/-- The gate examines the command of a port's channel that is next (R274, R275). -/
def Dev.gate (d : Dev) (p : Port) : Dev :=
  match d.cmd p, (d.chan (pilotChan p)).queue with
  | none, ws :: _ =>
    if d.pl.locked || !d.gateDue p then d
    else
      let code := d.gateCode p ws
      if code = 0 then d.gateAdmit p ws else d.gateRefuse p code
  | _, _ => d

/-! ### Acceptance (R276) -/

/-- A word lies within a field's bits. -/
def Cmd.fits (c : Cmd) (i n : Nat) : Bool := decide (c.word i < 2 ^ n)

/-- Every argument is in range and every reserved bit is 0 (R276, R280). -/
def Cmd.argsOk (c : Cmd) : Bool :=
  let op := c.op
  if op = 0x0001 then c.fits 1 4 && decide (1 ≤ c.word 2) && c.fits 2 12
  else if op = 0x0002 ∨ op = 0x0004 then c.fits 1 4
  else if op = 0x0003 then c.fits 1 4 && c.fits 7 7
  else if op = 0x0011 then c.fits 4 7 && c.fits 6 7
  else if op = 0x0012 ∨ op = 0x0022 ∨ op = 0x0072 then c.fits 2 7 && c.fits 4 7
  else if op = 0x0031 then c.fits 2 5
  else if op = 0x0040 then c.fits 1 11 && c.fits 2 4
  else if op = 0x0060 then c.fits 1 1 && (decide (c.word 1 = 0) || c.fits 3 7)
  else if op = 0x0071 then c.fits 1 1 && c.fits 3 7 && c.fits 5 7
  else true

/-- The header of an export and the entries after it (R476). -/
def Dev.exportWords (d : Dev) (frozen : Bool) (seq : Nat) (es : List LogEntry) : List Word :=
  let body := es.flatMap LogEntry.words
  let scope := bit ((body.getD 0 0#14).toNat) 10
  [0x1B0C#14, wd (1 + 16 * b2n frozen + 32 * b2n scope)] ++ twoWords seq
    ++ toWords ((es.head?.map LogEntry.tick).getD 0) 3 ++ [wd es.length] ++ twoWords body.length
    ++ toWords d.cf.crc 3 ++ [wd d.node, 0#14, 0#14] ++ body

/-- What LOGBOOK_EXPORT is to copy is fixed at acceptance (R476). -/
def Dev.exportBegin (d : Dev) (c : Cmd) : Cmd :=
  if c.word 1 = 1 then
    { c with lock := d.lb.entries.length, copy := d.exportWords false 0xFFFFFFF d.lb.entries }
  else match d.lb.frozen with
    | some f => { c with copy := if f.entries = [] then [] else d.exportWords true f.seq f.entries }
    | none => c

/-- The pilot takes the admitted command of a port and checks its arguments (R276). -/
def Dev.accept (d : Dev) (p : Port) : Dev :=
  match d.cmd p with
  | some c =>
    if c.phase = .admitted then
      let d := d.mbxTake (pilotChan p)
      let value := (d.tally (c.word 1)).value
      let c := { c with phase := .accepted, acceptAt := d.now, acceptTick := d.ck.tick, tallyAt := value }
      let d := d.setCmd p (some (if c.op = 0x0071 then d.exportBegin c else c))
      if c.argsOk then d else d.finish p 0x0001
    else d
  | none => d

/-! ### Destinations (R281) -/

/-- A port may have results written to a page. -/
def Dev.pageFor (d : Dev) (p : Port) (page : Nat) : Bool :=
  match d.holdOf page with
  | some n => !(d.hold n).persistent && ((d.hold n).policy == .free) && (d.hold n).writer p
  | none => true

/-- A run of words is a destination for a port. -/
def Dev.destOk (d : Dev) (p : Port) (a n : Nat) : Bool :=
  decide (a + n ≤ 0x1E0000) && decide (a < 0x1E0000) &&
    ((List.range (pageOf (a + n - 1) + 1 - pageOf a)).all fun i => d.pageFor p (pageOf a + i))

/-- The reply that gives a number of words. -/
def wordsReply (op n : Nat) : List Word := wd op :: twoWords n

/-- Write a result to a destination (R281). -/
def Dev.deliver (d : Dev) (p : Port) (op a cap : Nat) (ws : List Word) : Dev :=
  if !d.destOk p a cap then d.finish p 0x0002
  else if cap < ws.length then d.finishWith p (wordsReply op ws.length) 0x0003
  else (d.pilotRun a ws).finishWith p (wordsReply op ws.length) 0

/-! ### Tally commands (R282, R374, R377) -/

/-- The image authorises a port for a tally. -/
def Tally.allows (x : Tally) : Port → Bool
  | .a => x.portA
  | .b => x.portB

/-- TALLY_INC (R282). -/
def Dev.tallyInc (d : Dev) (p : Port) (c : Cmd) : Dev :=
  let x := d.tally (c.word 1)
  let waiting := (x.incs.map Prod.snd).sum
  if !x.declared || x.broken || !x.allows p then d.finish p 0x0401
  else if 2 ^ 56 ≤ x.value + waiting + c.word 2 then d.finish p 0x0403
  else (d.modTally (c.word 1) fun x => { x with incs := x.incs ++ [(p, c.word 2)] }).setStarted p

/-- TALLY_READ (R282). An undeclared tally is answered as R282 answers TALLY_INC (DEDUCED, log entry 38). -/
def Dev.tallyRead (d : Dev) (p : Port) (c : Cmd) : Dev :=
  let x := d.tally (c.word 1)
  if !x.declared || x.broken then d.finish p 0x0401 else d.finishWith p (0x0002#14 :: toWords c.tallyAt 4) 0

/-- TALLY_ATTEST (R374). -/
def Dev.tallyAttest (d : Dev) (p : Port) (c : Cmd) : Dev :=
  let x := d.tally (c.word 1)
  if !x.declared || x.broken then d.finish p 0x0401
  else if !d.destOk p (c.value 6 2) 55 then d.finish p 0x0002
  else
    let j : SealJob := .attest p (d.attestWords (c.word 1) c.tallyAt c.acceptTick (c.value 2 4)) (c.value 6 2)
    ({ d with ks := { d.ks with attests := d.ks.attests ++ [j] } }.setStarted p).sealTake

/-- TALLY_RECOVER (R377). -/
def Dev.tallyRecover (d : Dev) (p : Port) (c : Cmd) : Dev :=
  let t := c.word 1
  if !(d.tally t).declared then d.finish p 0x0401
  else if d.team.isEmpty || !d.originates then d.finish p 0x0411
  else
    let r : Recover := { port := p, tally := t, tick := c.acceptTick }
    let d := { d with ks := { d.ks with recover := d.ks.recover ++ [r] } }.setStarted p
    d.team.foldl (fun d n => d.originate .query n false false [1#14, wd t, 0#14, 0#14]) d

/-- Put a value into a list of values, the highest first. -/
def insertDesc (v : Nat) : List Nat → List Nat
  | [] => [v]
  | x :: xs => if x < v then v :: x :: xs else x :: insertDesc v xs

/-- The values of the verifying replicas under one key, the highest first (R377). -/
def valuesUnder (key : List Word) (rs : List Replica) : List Nat :=
  (rs.filter fun r => (r.words.drop 55).take 37 == key).foldl (fun vs r => insertDesc (replicaValue r.words) vs) []

/-- The agreed value of a recovery with a team of `k` (R377). -/
def agreedValue (k : Nat) (rs : List Replica) : Option Nat :=
  let m := k / 2 + 1
  (rs.map fun r => valuesUnder ((r.words.drop 55).take 37) rs).findSome? fun vs =>
    if m ≤ vs.length then vs[m - 1]? else none

/-- A replica is one of this node's tally and verifies (R377). -/
def Dev.replicaFits (d : Dev) (t : Nat) (r : Replica) : Bool :=
  (r.words.getD 1 0#14 == wd (t + 16 * d.node)) && replicaVerifies r.words

/-- The wait of a recovery ends (R377). -/
def Dev.recoverEnd (d : Dev) (r : Recover) : Dev :=
  let d := { d with ks := { d.ks with recover := d.ks.recover.filter fun y => y.port != r.port } }
  let x := d.tally r.tally
  match agreedValue d.sealedHold.rope (r.replicas.filter (d.replicaFits r.tally)) with
  | none => d.finish r.port 0x0411
  | some v =>
    if !x.broken && decide (v ≤ x.value) then d.finish r.port 0x0412
    else
      let d := (d.rereadBlock.putTally r.tally (v / 64) (v % 64) x.nInc).putTally r.tally (v / 64) (v % 64) x.nInc
      let ver := (d.tally r.tally).ver
      let d := d.modTally r.tally fun y =>
        { y with broken := false, copy1 := false, ver := if y.copy1 then (ver + 16383) % 16384 else ver }
      d.finishWith r.port (0x0004#14 :: toWords v 4) 0

/-! ### Record commands (R282, R364, R367) -/

/-- RECORD_FREEZE (R282). -/
def Dev.recordFreeze (d : Dev) (p : Port) : Dev :=
  if d.pw.mode = .hold ∨ (d.pw.mode = .replay ∧ d.ck.active = .hold) then (d.countExtra 1).finish p 0x0501
  else { d with pl := { d.pl with freezeReq := d.pl.freezeReq ++ [p] } }.setStarted p

/-- The slots whose records RECORD_LIST gives, in ascending sequence (R367). -/
def Dev.listed (d : Dev) (first : Nat) : List Nat :=
  ((List.range d.ks.slots).filter fun i => (d.slotRec i).state.record && decide (first ≤ (d.slotRec i).seq)).foldl
    (fun l i => d.bySeq i l) []

/-- RECORD_LIST (R367). -/
def Dev.recordList (d : Dev) (p : Port) (c : Cmd) : Dev :=
  let first := c.value 1 2
  let is := d.listed first
  if (is.head?.map fun i => (d.slotRec i).seq) ≠ some first then d.finish p 0x0502
  else d.deliver p 0x0011 (c.value 3 2) (c.value 5 2)
    (is.flatMap fun i => twoWords (d.slotRec i).seq ++ [wd i, (d.slotRec i).stateWord])

/-- The words of the certificate (R364). -/
def certWords : List Word :=
  let n := Config.certificate.length
  twoWords n ++ packGroups (ceilDiv n 7) Config.certificate

/-! ### Peer messages (R282, R283, R418) -/

/-- The payload of a PEER_SEND's frame (R418). -/
def Cmd.peerWords (c : Cmd) : List Word := [wd (field (c.word 1) 10 1), wd (c.word 2)] ++ (c.words.drop 3).take (c.word 2)

/-- A PEER frame that no link has sent yet is not sent (R278). -/
def Dev.unsend (d : Dev) (c : Cmd) : Dev :=
  let same : Frame → Bool := fun f =>
    f.typ == .peer && decide (f.src = d.rg.nodeId) && decide (f.dst = c.word 1 % 1024) && f.payload == padWords c.peerWords
  let cut : LinkSt → LinkSt := fun x => { x with locals := x.locals.eraseP same }
  (d.modLink .up cut).modLink .dn cut

/-- PEER_SEND (R282, R418). -/
def Dev.peerSend (d : Dev) (p : Port) (c : Cmd) : Dev :=
  let node := c.word 1 % 1024
  if !d.hasRing || !d.rg.numbered || decide (node = d.rg.nodeId) || !d.inRing node then d.finish p 0x0601
  else if !d.pathTo node then d.finish p 0x0602
  else
    let d := { d with rg := { d.rg with peers := d.rg.peers ++ [(p, node, c.acceptTick)] } }.setStarted p
    d.originate .peer node false false c.peerWords

/-- No DELIV within 16 ticks (R418). -/
def Dev.peerTimeout (d : Dev) (p : Port) : Dev :=
  match d.rg.peers.find? fun x => decide (x.1 = p) && decide (x.2.2 + 16 ≤ d.ck.tick) with
  | some x => { d with rg := { d.rg with peers := d.rg.peers.filter fun y => y != x } }.finishIf p 0x0040 0x0602
  | none => d

/-- A held message is posted into words that no command reserves (R283). -/
def Dev.inboxDeliver (d : Dev) (p : Port) : Dev :=
  match d.pl.inbox.find? fun m => m.port == p with
  | some m =>
    if 3 + m.words.length ≤ d.returnFree p then
      let inbox := d.pl.inbox.erase m
      { d with pl := { d.pl with inbox := inbox } }.pilotPost p ([0x0041#14, wd m.src, wd m.words.length] ++ m.words)
    else d
  | none => d

/-! ### Sleep and service (R282 to R287) -/

/-- SLEEP_REQUEST waits for the check point at which it acts; in HOLD it is deferred (R133, R282). -/
def Dev.sleepRequest (d : Dev) (p : Port) : Dev :=
  let d := { d with pl := { d.pl with sleepReq := d.pl.sleepReq ++ [p] } }.setStarted p
  if d.pw.mode = .hold then { d with pw := { d.pw with sleepPending := true } } else d

/-- Step 0 draws a nonce (R284). -/
def Dev.serviceNonce (d : Dev) (p : Port) : Dev :=
  let (d, n) := d.draw
  { d with pl := { d.pl with nonce := some n } }.finishWith p (0x0060#14 :: toWords n 4) 0

/-- The code of the first token check that fails, 0 where every one passes (R285, R286). -/
def tokenCode (nonce : Nat) (ws : List Word) : Nat :=
  let key := (ws.drop 9).take 37
  let bad := (ws.getD 0 0#14 != 0x2B17#14) || decide (ofWords ((ws.drop 1).take 4) ≠ Config.uid.toNat)
    || decide (ofWords ((ws.drop 5).take 4) ≠ nonce) || decide (256 ≤ (ws.getD 45 0#14).toNat)
    || decide (256 ≤ (ws.getD 82 0#14).toNat)
  if bad then 0x0303
  else match Config.ownerHash with
    | none => 0x0304
    | some h =>
      if sha256 (unpackBytes key 64) ≠ h then 0x0304
      else if verifyWords key ((ws.drop 46).take 37) (sha256 (wordsBytes (ws.take 46))) then 0 else 0x0305

/-- Step 1 checks the token (R284 to R287). -/
def Dev.serviceToken (d : Dev) (p : Port) (c : Cmd) : Dev :=
  let a := c.value 2 2
  let nonce := d.pl.nonce
  let d := { d with pl := { d.pl with nonce := none } }
  match nonce with
  | none => d.finish p 0x0301
  | some n =>
    if 0x1E0000 < a + 83 then d.finish p 0x0302
    else
      let (d, rs) := d.readRun 9 a 83
      if rs.any fun r => r.out == .uncorrectable then d.finish p 0x0302
      else
        let code := tokenCode n (rs.map Decoded.data)
        if code = 0 then { d with pl := { d.pl with svcReq := d.pl.svcReq ++ [(p, d.now)] } }.setStarted p
        else { d with pl := { d.pl with svcFail := satInc 14 d.pl.svcFail } }.finish p code

/-! ### Abandoned commands (R277, R278, R291) -/

/-- A retirement whose copy is not complete is dropped, and its spare is free again; a bank retirement leaves the commit
that was to carry it (R215, R278). -/
def Dev.dropRetire (d : Dev) (p : Port) : Dev :=
  match d.ar.retire with
  | none => d
  | some j =>
    if j.port ≠ p then d
    else if j.bankJob then
      let cut : MapCommit → MapCommit := fun c => { c with copy := { c.copy with bankRet := c.copy.bankRet.filter (· != j.page) } }
      { d with ar := { d.ar with retire := none, retState := 0 }, kl := { d.kl with commit := d.kl.commit.map cut } }
    else if j.copied then d
    else
      let b := j.page / 512
      { d with ar := { d.ar with retire := none, retState := 0, spares := d.ar.spares.modify b (· + 1) } }

/-- What an abandoned command of a port that has been accepted undoes (R278). An export's lock and copy go with the command. -/
def Dev.undoCmd (d : Dev) (p : Port) (c : Cmd) : Dev :=
  let op := c.op
  let mine : SealJob → Bool := fun j => match j with
    | .attest q _ _ => decide (q = p)
    | _ => false
  if op = 0x0001 then
    let drop : Tally → Tally := fun x => { x with incs := x.incs.filter fun i => i.1 != p }
    { d with ks := { d.ks with tallies := d.ks.tallies.map drop } }
  else if op = 0x0003 then
    let active := d.ks.active.filter fun j => !mine j
    { d with ks := { d.ks with attests := d.ks.attests.filter fun j => !mine j, active := active } }
  else if op = 0x0004 then { d with ks := { d.ks with recover := d.ks.recover.filter fun r => r.port != p } }
  else if op = 0x0010 then { d with pl := { d.pl with freezeReq := d.pl.freezeReq.filter (· != p) } }
  else if op = 0x0020 ∨ op = 0x0021 then d.dropRetire p
  else if op = 0x0022 then { d with ar := { d.ar with ranges := d.ar.ranges.filter fun r => r.port != p } }
  else if op = 0x0040 then { d with rg := { d.rg with peers := d.rg.peers.filter fun x => x.1 != p } }.unsend c
  else if op = 0x0050 then { d with pl := { d.pl with sleepReq := d.pl.sleepReq.filter (· != p) } }
  else if op = 0x0060 then { d with pl := { d.pl with svcReq := d.pl.svcReq.filter (·.1 != p), nonce := none } }
  else if op = 0x0061 then { d with pl := { d.pl with leaveReq := d.pl.leaveReq.filter (·.1 != p) } }
  else if op = 0x0070 then { d with lb := { d.lb with frzCmd := d.lb.frzCmd.filter (· != p) } }
  else if op = 0x0072 ∧ c.phase = .started then
    { d with lb := { d.lb with replay := none, replayDue := false, rState := 0 } }
  else d

/-- A port's command that lacks its return code ends with a code of the gate's, with no reply (R277, R291). A command that
the pilot has not taken yet leaves its queue with it (DEDUCED, log entry 39). -/
def Dev.abandonCmd (d : Dev) (p : Port) (code : Nat) : Dev :=
  match d.cmd p with
  | none => d
  | some c =>
    let d := if c.phase = .admitted then d.mbxTake (pilotChan p) else d.undoCmd p c
    d.finish p code

/-- A pilot fault ends a port's command in progress (R291). The pilot no longer takes: a message that it has not taken stays queued
(R269). -/
def Dev.faultCmd (d : Dev) (p : Port) : Dev :=
  match d.cmd p with
  | none => d
  | some c =>
    if c.phase = .admitted then
      (d.modChan (pilotChan p) fun x => { x with answered := 1 }).finish p 0x3FF7
    else (d.undoCmd p c).finish p 0x3FF7

/-! ### Pilot faults (R289 to R291) -/

/-- A pilot fault (R291). -/
def Dev.pilotFault (d : Dev) (cause vector pc sp : Nat) : Dev :=
  let boat : Lifeboat := { cause := cause, vector := vector, pc := pc, sp := sp, tick := d.ck.tick }
  let d := { d with pl := { d.pl with locked := true, boat := boat, woken := false, limpDue := if d.pw.mode = Mode.store then none else some d.now },
                    pw := { d.pw with limpCause := 2 } }
  let d := (d.faultCmd .a).faultCmd .b
  let d := ((d.semReset .pilot).semRingReset .pilot).completeAll .pilot
  (d.fire 1).updPins

/-- An exception: the frame goes to a valid stack, or to the lifeboat frame with a pilot fault (R289). -/
def Dev.pilotException (d : Dev) (vector pc sp : Nat) (frame : List Word) : Dev :=
  if 0x1EC006 ≤ sp ∧ sp ≤ 0x1F0000 then d.writeRun (sp - 6) (frame.take 6) else d.pilotFault 1 vector pc sp

/-- The slots of a command's fixed completion window; TALLY_INC's is counted in ticks, and others have none (R280). -/
def Dev.windowSlots (d : Dev) (c : Cmd) : Option Nat :=
  if c.op = 0x0002 then some 20000
  else if c.op = 0x0010 ∨ c.op = 0x0061 then some 128
  else if c.op = 0x0060 then some (if c.word 1 = 0 then 20000 else 3000000)
  else if c.op = 0x0011 then some (2 * d.ck.lenReg)
  else if c.op = 0x0012 ∨ c.op = 0x0070 then some d.ck.lenReg
  else none

/-- The last slot of TALLY_INC's window has come: the tick after acceptance, and one tick more for each overrun (R280). -/
def Dev.tallyLate (d : Dev) (c : Cmd) : Bool :=
  let last := c.acceptTick + 1 + c.grace
  decide (last < d.ck.tick) || (last == d.ck.tick && decide (d.ck.curLen ≤ d.ck.slot + 1))

/-- The window of a port's command that has been missed: 2 acceptance, 3 completion (R276, R290). -/
def Dev.missedWindow (d : Dev) (p : Port) : Option Nat :=
  match d.cmd p with
  | none => none
  | some c =>
    match c.phase with
    | .admitted => if c.nextAt + 4096 ≤ d.now then some 2 else none
    | _ =>
      if c.op = 0x0001 then (if d.tallyLate c then some 3 else none)
      else match d.windowSlots c with
        | some n => if c.acceptAt + n ≤ d.now then some 3 else none
        | none => none

end Sys2Proof.Machine
end

