-- ==== Sys2Proof/Machine/RingFrames.lean ====
section
/-!
DEFINITION. What arrives on a link and what leaves it: frames by type, ordered sets, the transmitter, roping, guest
replicas, KEEP frames (R383 to R395, R411 to R418, R425 to R433).
-/
namespace Sys2Proof.Machine
open Sys2Proof

/-! ### Guest slots (R411 to R413) -/

/-- What words 0 to 3 of a guest slot hold (R411): the slot's address, the source, the sequence and the state. -/
structure GuestHead where
  slot : Nat
  src : Nat
  seq : Nat
  state : Nat
  deriving DecidableEq, Repr

/-- The heads of guest slots, as the ring engine reads them (R189, R411). -/
def Dev.guestHeads (d : Dev) : List Nat → Dev × List GuestHead
  | [] => (d, [])
  | a :: as =>
    let (d, rs) := d.readRun 5 a 4
    let n := fun i => ((rs.map Decoded.data).getD i 0#14).toNat
    let (d, hs) := d.guestHeads as
    (d, { slot := a, src := n 0, seq := n 1 + 16384 * n 2, state := n 3 % 4 } :: hs)

/-- The guest slot that REP index 0 takes, and the guest pointer after it (R413). -/
def pickGuest (hs : List GuestHead) (ptr src seq : Nat) : Option (Nat × Nat) :=
  match hs.find? fun h => h.state != 0 && h.src == src && h.seq == seq with
  | some h => some (h.slot, ptr)
  | none =>
    match hs.find? fun h => h.state == 0 with
    | some h => some (h.slot, ptr)
    | none => (hs[ptr % hs.length]?).map fun h => (h.slot, (ptr + 1) % hs.length)

/-- Set or clear what a guest slot that is being filled expects. -/
def Dev.setFilling (d : Dev) (a : Nat) (f : Option Filling) : Dev :=
  { d with rg := { d.rg with filling := f.toList ++ d.rg.filling.filter fun x => x.slot != a } }

/-- Write a frame's words into a guest slot (R413): the slot completes with the last frame, and empties where words would
pass its end. Padding of the last group beyond the end is no word of the record (R387). -/
def Dev.guestWrite (d : Dev) (a src seq index total : Nat) (ws : List Word) : Dev :=
  let room := d.rg.gWords - 4 - 140 * index
  let extra := ws.drop room
  if 3 < extra.length ∨ extra.any fun w => w != 0#14 then
    let d := (d.writeArr (a + 3) 0#14).setFilling a none
    { d with rg := { d.rg with repRej := satInc 14 d.rg.repRej } }
  else
    let d := d.writeRun (a + 4 + 140 * index) (ws.take room)
    if total ≤ index + 1 then
      ((d.writeArr (a + 3) 2#14).setFilling a none).originate .belay src false false (twoWords seq)
    else d.setFilling a (some { slot := a, src := src, seq := seq, next := index + 1 })

/-- A REP frame for the guest hold (R411, R413). -/
def Dev.takeRep (d : Dev) (src seq index total : Nat) (ws : List Word) : Dev :=
  if index = 0 then
    let (d, hs) := d.guestHeads d.guestSlots
    match pickGuest hs d.rg.guestPtr src seq with
    | none => d
    | some (a, ptr) =>
      let d := { d with rg := { d.rg with guestPtr := ptr } }
      let d := d.writeRun a ([wd src] ++ twoWords seq ++ [1#14])
      d.guestWrite a src seq 0 total ws
  else
    match d.rg.filling.find? fun f => f.src == src && f.seq == seq && f.next == index with
    | some f => d.guestWrite f.slot src seq index total ws
    | none => d

/-! ### Roping (R412, R414) -/

/-- A member's replication state. -/
def RecSlot.member (r : RecSlot) (m : Nat) : RepState := r.members.getD m .wait

/-- Set a member's replication state. -/
def RecSlot.setMember (r : RecSlot) (m : Nat) (x : RepState) : RecSlot :=
  { r with members := (r.members ++ List.replicate (m + 1 - r.members.length) RepState.wait).set m x }

/-- The member waits and a path to it exists. -/
def Dev.memberReady (d : Dev) (i m : Nat) : Bool :=
  (d.slotRec i).member m == .wait && match d.team[m]? with
    | some n => d.pathTo n
    | none => false

/-- Members whose turn comes for a record. -/
def Dev.readyMembers (d : Dev) (i : Nat) : List Nat := (List.range d.team.length).filter fun m => d.memberReady i m

/-- The next record to be sent (R412): the lowest sequence that is LOCAL with a member ready. -/
def Dev.ropeStart (d : Dev) : Dev :=
  if d.rg.roping.isSome || !d.originates then d
  else
    let local' := (List.range d.ks.slots).filter fun i =>
      (d.slotRec i).state == .local' && !(d.readyMembers i).isEmpty
    match local'.foldl (fun l i => d.bySeq i l) [] with
    | i :: _ =>
      let ms := d.readyMembers i
      let d := d.modRecQuiet i fun r => ms.foldl (fun r m => r.setMember m .send) r
      { d with rg := { d.rg with roping := some (i, List.replicate d.team.length 0) } }
    | [] => d

/-- REP frames of a record of `w` words (R412). -/
def repCount (w : Nat) : Nat := ceilDiv w 140

/-- The members of a record in SEND. -/
def Dev.senders (d : Dev) (i : Nat) : List Nat :=
  (List.range d.team.length).filter fun m => (d.slotRec i).member m == .send

/-- The member whose turn it is: the least index sent so far, in team order (R412). -/
def nextSender (idx : List Nat) : List Nat → Option Nat
  | [] => none
  | m :: ms =>
    match nextSender idx ms with
    | some k => if idx.getD k 0 < idx.getD m 0 then some k else some m
    | none => some m

/-- Words of a frame of a record in a slot, read by the ring engine (R412). -/
def Dev.repRead (d : Dev) (base w index : Nat) : Dev × List Word :=
  let (d, rs) := d.readRun 5 (base + 140 * index) (min 140 (w - 140 * index))
  (d, rs.map Decoded.data)

/-- The next REP frame of the record being roped, if one is due. -/
def Dev.repNext (d : Dev) : Dev × Option Frame :=
  let d := d.ropeStart
  match d.rg.roping with
  | none => (d, none)
  | some (i, idx) =>
    let stop := { d with rg := { d.rg with roping := none } }
    if (d.slotRec i).state ≠ .local' then (stop, none)
    else match nextSender idx (d.senders i) with
      | none => (stop, none)
      | some m =>
        let k := idx.getD m 0
        let total := repCount d.ks.wRec
        let (d, ws) := d.repRead (d.slotBase i) d.ks.wRec k
        let f : Frame := { typ := .rep, src := d.rg.nodeId, dst := d.team.getD m 0, hops := 0, bcast := false,
                           reply := false, payload := padWords (twoWords (d.slotRec i).seq ++ [wd k, wd total] ++ ws) }
        let d := { d with rg := { d.rg with roping := some (i, idx.set m (k + 1)) } }
        if total ≤ k + 1 then (d.modRecQuiet i fun r => r.setMember m (.await d.ck.tick), some f) else (d, some f)

/-- The slot that holds a sequence. -/
def Dev.slotOfSeq (d : Dev) (seq : Nat) : Option Nat :=
  (List.range d.ks.slots).find? fun i => (d.slotRec i).state.record && (d.slotRec i).seq == seq

/-- A BELAY (R414). -/
def Dev.takeBelay (d : Dev) (src seq : Nat) : Dev :=
  match d.slotOfSeq seq, d.team.idxOf? src with
  | some i, some m =>
    if (d.slotRec i).member m = .belayed then d
    else
      let r := (d.slotRec i).setMember m .belayed
      let n := (r.members.filter fun x => x == .belayed).length
      let done := r.state = .local' ∧ n = d.sealedHold.rope
      let d := d.modRec i fun _ => { r with belays := n, state := if done then .roped else r.state }
      if done then d.fire 35 else d
  | _, _ => d

/-- 64 ticks without a BELAY (R414), for a member of the record with the lowest sequence. -/
def Dev.belayTimeout (d : Dev) (m : Nat) : Dev :=
  let late : RecSlot → Bool := fun r => match r.member m with
    | .await t => decide (t + 64 ≤ d.ck.tick)
    | _ => false
  match ((List.range d.ks.slots).filter fun i => late (d.slotRec i)).foldl (fun l i => d.bySeq i l) [] with
  | i :: _ =>
    let d := d.modRecQuiet i fun r => r.setMember m .wait
    { d with rg := { d.rg with repRetry := satInc 14 d.rg.repRetry } }
  | [] => d

/-! ### Queries and tally replicas (R376, R415) -/

/-- The words of the record whose header a guest slot holds, as the ring engine reads it (R98, R189, R358). -/
def Dev.copyWords (d : Dev) (a : Nat) : Dev × Nat :=
  let (d, rs) := d.readRun 5 (a + 10) 3
  let n := fun i => ((rs.map Decoded.data).getD i 0#14).toNat
  (d, 80 + n 2 % 32 * (33 * (blocksFor (n 0) + 1 + blocksFor (n 1))))

/-- What a guest tally slot holds (R376): whether it holds a replica, of which tally and node, its value and its tick. -/
structure TallyHead where
  slot : Nat
  used : Bool
  who : Word
  value : Nat
  tick : Nat
  deriving DecidableEq, Repr

/-- The heads of guest tally slots, as the ring engine reads them (R189, R376). -/
def Dev.tallyHeads (d : Dev) : List Nat → Dev × List TallyHead
  | [] => (d, [])
  | a :: as =>
    let (d, rs) := d.readRun 5 a 14
    let ws := rs.map Decoded.data
    let (d, hs) := d.tallyHeads as
    (d, { slot := a, used := ws.getD 0 0#14 == 0x1A7E#14, who := ws.getD 1 0#14, value := replicaValue ws,
          tick := ofWords ((ws.drop 10).take 4) } :: hs)

/-- Send the frames of a complete copy back to its origin (R415). -/
def Dev.sendCopy (d : Dev) (a dst seq : Nat) : Dev :=
  let (d, w) := d.copyWords a
  let total := repCount w
  (List.range total).foldl (fun d k =>
    let (d, ws) := d.repRead (a + 4) w k
    d.originate .rep dst false true (twoWords seq ++ [wd k, wd total] ++ ws)) d

/-- A QUERY (R415). -/
def Dev.takeQuery (d : Dev) (src : Nat) (ws : List Word) : Dev :=
  let none' : Dev → Dev := fun d => d.originate .qnone src false false (ws.take 3)
  if ws.getD 0 0#14 = 0#14 then
    let seq := ofWords ((ws.drop 1).take 2)
    let (d, hs) := d.guestHeads d.guestSlots
    match hs.find? fun h => h.state == 2 && h.src == src && h.seq == seq with
    | some h => d.sendCopy h.slot src seq
    | none => none' d
  else
    let t := (ws.getD 1 0#14).toNat % 16
    let (d, hs) := d.tallyHeads d.tallyGuests
    match hs.find? fun h => h.used && h.who == wd (t + 16 * src) with
    | some h =>
      let (d, rs) := d.readRun 5 h.slot 92
      d.originate .trep src false true (rs.map Decoded.data)
    | none => none' d

/-- The guest tally slot whose replica carries the oldest tick (R376). -/
def oldestGuest : List TallyHead → Option TallyHead
  | [] => none
  | h :: hs =>
    match oldestGuest hs with
    | some g => if g.tick < h.tick then some g else some h
    | none => some h

/-- Write a replica into a guest tally slot. -/
def Dev.putReplica (d : Dev) (a : Nat) (ws : List Word) : Dev := d.writeRun a (ws.take 92 ++ List.replicate 36 0#14)

/-- A tally replica of another node (R376). -/
def Dev.keepReplica (d : Dev) (ws : List Word) : Dev :=
  let (d, hs) := d.tallyHeads d.tallyGuests
  match hs.find? fun h => h.used && h.who == ws.getD 1 0#14 with
  | some h =>
    if replicaValue ws < h.value then { d with ks := { d.ks with guestRej := satInc 14 d.ks.guestRej } }
    else d.putReplica h.slot ws
  | none =>
    match hs.find? fun h => !h.used with
    | some h => d.putReplica h.slot ws
    | none =>
      match oldestGuest hs with
      | some h => d.putReplica h.slot ws
      | none => d

/-- A recovery takes a replica of its tally, one of each member (R377). -/
def Recover.take (r : Recover) (src : Nat) (ws : List Word) : Recover :=
  if (ws.getD 1 0#14).toNat % 16 = r.tally ∧ ¬ r.replicas.any (fun x => x.node == src) then
    { r with replicas := r.replicas ++ [{ node := src, words := ws }] }
  else r

/-- A replica that a recovery asked for arrives from a member (R377). -/
def Dev.takeReplica (d : Dev) (src : Nat) (ws : List Word) : Dev :=
  if d.team.contains src then { d with ks := { d.ks with recover := d.ks.recover.map fun r => r.take src ws } } else d

/-- QNONE ends the request to the member that was asked (R415). -/
def Dev.takeQnone (d : Dev) (src : Nat) (ws : List Word) : Dev :=
  match d.ks.repair with
  | some r =>
    if ws.getD 0 0#14 = 0#14 ∧ d.team[r.member]? = some src
        ∧ ofWords ((ws.drop 1).take 2) = (d.slotRec r.slot).seq then d.repairNext
    else d
  | none => d

/-! ### Semaphores, peers and KEEP (R283, R416 to R418, R428) -/

/-- A SEMCLAIM at the anchor (R416): one more than 2 ticks old is discarded. -/
def Dev.takeSemclaim (d : Dev) (src : Nat) (ws : List Word) : Dev :=
  let w := (ws.getD 0 0#14).toNat
  let age := (d.ck.tick + 2 ^ 28 - ofWords ((ws.drop 1).take 2)) % 2 ^ 28
  if !d.isAnchor then d
  else if 2 < age ∧ age < 2 ^ 27 then { d with rg := { d.rg with semStale := satInc 14 d.rg.semStale } }
  else d.anchorClaim (w % 16) src (field w 4 2)

/-- A SEMREL at the anchor (R417). -/
def Dev.takeSemrel (d : Dev) (src : Nat) (ws : List Word) : Dev :=
  let w := (ws.getD 0 0#14).toNat
  if d.isAnchor then d.anchorRelease (w % 16) src (field w 4 2) (bit w 6) else d

/-- A SEMSTATE (R416). -/
def Dev.takeSemstate (d : Dev) (ws : List Word) : Dev :=
  let n := fun i => (ws.getD i 0#14).toNat
  d.takeState (n 0 % 16) { node := n 1, party := Party.ofCode (n 2 % 4), broken := bit (n 2) 2 } (n 3) (n 4)

/-- A PEER message (R283, R418). -/
def Dev.takePeer (d : Dev) (src : Nat) (ws : List Word) : Dev :=
  let port := if (ws.getD 0 0#14).toNat % 2 = 0 then Port.a else Port.b
  let msg : PeerMsg := { port := port, src := src, words := (ws.drop 2).take (ws.getD 1 0#14).toNat }
  let d := d.originate .deliv src false false [0#14]
  if d.pl.inbox.length < 8 then { d with pl := { d.pl with inbox := d.pl.inbox ++ [msg] } }.wakePilot
  else { d with pl := { d.pl with peerDrop := satInc 14 d.pl.peerDrop } }.fire 30

/-- A DELIV completes PEER_SEND (R418). -/
def Dev.takeDeliv (d : Dev) (src : Nat) : Dev :=
  match d.rg.peers.find? fun x => x.2.1 == src with
  | some x => { d with rg := { d.rg with peers := d.rg.peers.erase x } }.finishIf x.1 0x0040 0
  | none => d

/-- A KEEP with non-zero reasons is seen (R428, R429). -/
def Dev.seeKeep (d : Dev) : Dev := { d with rg := { d.rg with tLast := d.ck.tick, agreed := false } }

/-- A KEEP frame (R428). -/
def Dev.takeKeep (d : Dev) (ws : List Word) : Dev :=
  let d := { d with rg := { d.rg with keepRx := satInc 14 d.rg.keepRx } }
  if (ws.getD 0 0#14).toNat % 256 = 0 then d else d.seeKeep

/-- keep_ticks and sleep_ticks (R426). -/
def Dev.msTicks (d : Dev) (ms : Nat) : Nat := ceilDiv (ms * 1000000) d.ck.lenReg

/-- A KEEP is due in this tick (R427). -/
def Dev.keepDue (d : Dev) : Bool :=
  let old := match d.rg.lastKeep with
    | none => true
    | some t => decide (t + d.msTicks d.rg.keepMs ≤ d.ck.tick)
  if d.rg.why = 0 then d.rg.whyChanged else old || d.rg.whyChanged

/-- Send a KEEP (R425, R427, R428). -/
def Dev.keepSend (d : Dev) : Dev :=
  if d.originates && d.keepDue then
    let d := d.originate .keep 0 true false ([wd d.rg.why, wd d.rg.keepMs] ++ toWords (d.ck.tick % 2 ^ 28) 2)
    let d := { d with rg := { d.rg with lastKeep := some d.ck.tick, whyChanged := false } }
    if d.rg.why = 0 then d else d.seeKeep
  else d

/-! ### Frames that arrive (R389 to R393) -/

/-- The node takes a frame. -/
def Dev.takeFrame (d : Dev) (l : Link) (f : Frame) : Dev :=
  let n := fun i => (f.payload.getD i 0#14).toNat
  let seq := ofWords (f.payload.take 2)
  match f.typ with
  | .enum => d.takeEnum l f.payload
  | .enumEnd => d.takeEnumEnd f.payload
  | .ringmap => d.takeMap (n 0) (n 1) (n 2)
  | .fold => if n 1 = 0 then d.noteBroken (n 0) else d.noteHealed (n 0)
  | .rep => if f.reply then d.repairFrame f.src seq (n 2) (n 3) (f.payload.drop 4)
      else d.takeRep f.src seq (n 2) (n 3) (f.payload.drop 4)
  | .belay => d.takeBelay f.src seq
  | .query => d.takeQuery f.src f.payload
  | .trep => if f.reply then d.takeReplica f.src f.payload else d.keepReplica f.payload
  | .qnone => d.takeQnone f.src f.payload
  | .semclaim => d.takeSemclaim f.src f.payload
  | .semrel => d.takeSemrel f.src f.payload
  | .semstate => d.takeSemstate f.payload
  | .peer => d.takePeer f.src f.payload
  | .deliv => d.takeDeliv f.src
  | .keep => d.takeKeep f.payload

/-- A one-hop frame (R388). -/
def Frame.oneHop (f : Frame) : Bool := f.typ == .enum || f.typ == .enumEnd

/-- The node takes frames addressed to it (R380, R398). -/
def Dev.takesFrames (d : Dev) : Bool := d.rg.numbered && d.pw.mode.timetabled

/-- Where an accepted frame goes (R380, R390, R391, R398). -/
def Dev.routeFrame (d : Dev) (l : Link) (f : Frame) : Dev :=
  if f.oneHop then
    let d := d.oweCredit l f.typ.cls
    if d.pw.mode.timetabled then d.takeFrame l f else d
  else if f.bcast then
    if l = d.logical .up then
      if d.rg.numbered && f.src == d.rg.nodeId then d.oweCredit l f.typ.cls
      else
        let d := if d.takesFrames then d.takeFrame l f else d
        d.forwardFrame l f
    else d.forwardFrame l f
  else if d.rg.numbered && f.dst == d.rg.nodeId then
    let d := d.oweCredit l f.typ.cls
    if d.takesFrames then d.takeFrame l f else d
  else d.forwardFrame l f

/-- The FRAME record of an accepted frame (R468). -/
def Dev.captureFrame (d : Dev) (l : Link) (f : Frame) (seq : Nat) : Dev :=
  let bs := f.bytes seq
  d.capture 6 d.ck.slot (wd (6 + 16 * d.linkNo l) :: twoWords d.ck.slot ++ [wd bs.length]
    ++ packGroups (ceilDiv bs.length 7) bs)

/-- A link takes frames: it is ACTIVE and the image declares a ring (R380, R421). -/
def Dev.linkLive (d : Dev) (l : Link) : Bool := d.linksTrain && d.hasRing && ((d.link l).state == .active)

/-- An accepted frame, as it reaches the node. -/
def Dev.acceptFrame (d : Dev) (l : Link) (f : Frame) (seq : Nat) : Dev :=
  let (d, ok) := d.acceptSeq l seq
  if ok then (d.captureFrame l f seq).routeFrame l f else d

/-- A live frame of a replay: acknowledged, its credit returned, and discarded (R480). -/
def Dev.discardFrame (d : Dev) (l : Link) (cls seq : Nat) : Dev :=
  let (d, ok) := d.acceptSeq l seq
  if ok then d.oweCredit l cls else d

/-- A frame whose CRC passes arrives on a link. -/
def Dev.recvFrame (d : Dev) (l : Link) (f : Frame) (seq : Nat) : Dev :=
  if d.pw.mode = .replay then d.onWire fun d => if d.linkLive l then d.discardFrame l f.typ.cls seq else d
  else if d.linkLive l then d.acceptFrame l f seq else d

/-- A malformed frame: counted, discarded and acknowledged (R389). -/
def Dev.recvMalformed (d : Dev) (l : Link) (cls seq : Nat) : Dev :=
  if d.pw.mode = .replay then d.onWire fun d => if d.linkLive l then d.discardFrame l cls seq else d
  else if d.linkLive l then
    let (d, ok) := d.acceptSeq l seq
    if ok then { d with rg := { d.rg with malform := satInc 14 d.rg.malform } }.oweCredit l cls else d
  else d

/-- A frame whose CRC fails, or that ends in ABORT, arrives on a link (R393). -/
def Dev.recvBad (d : Dev) (l : Link) (crc : Bool) : Dev :=
  d.onWire fun d => if d.linkLive l then d.badFrame l crc else d

/-- A frame is for another node and would be forwarded: its forwarding has begun where its credit is held and nothing waits before it
(R391). -/
def Dev.cutThrough (d : Dev) (l : Link) (bs : List Byte) : Bool :=
  let v := leBytes (bs.take 8)
  let out := d.link (d.outFrom l)
  decide (8 ≤ bs.length) && (bit v 59 || !d.rg.numbered || decide (field v 16 10 ≠ d.rg.nodeId))
    && (out.state == .active) && out.through.isEmpty && decide (0 < out.credits.getD (field v 4 2) 0)

/-- A frame whose forwarding has begun and whose CRC then fails is ended with ABORT (R387). -/
def Dev.abortThrough (d : Dev) (l : Link) (bs : List Byte) : Dev :=
  if d.pw.mode ≠ .replay ∧ d.linkLive l = true ∧ d.cutThrough l bs = true then
    d.modLink (d.outFrom l) fun x => { x with sent := .abort }
  else d

/-- The bytes between an SOF and an EOF arrive on a link: they say what they are (R386, R389, R393). -/
def Dev.recvBytes (d : Dev) (l : Link) (bs : List Byte) : Dev :=
  match readFrame bs with
  | .bad => (d.abortThrough l bs).recvBad l true
  | .malformed cls seq => d.recvMalformed l cls seq
  | .frame f seq => d.recvFrame l f seq

/-! ### Ordered sets -/

/-- ACK, NAK and CRD on an ACTIVE link, with their LINK record (R391, R394, R468). -/
def Dev.recvSet (d : Dev) (l : Link) (event value : Nat) (f : Dev → Dev) : Dev :=
  d.onWire fun d => if d.linkLive l then f (d.captureLink l event value) else d

/-- A restart of a link that a passing neighbour calls for (R433). -/
def Dev.passRestart (d : Dev) (l : Link) : Dev :=
  let x := d.link l
  if x.state ≠ .active then d
  else
    let frames := List.zipWith (fun (i : Nat) (f : SentFrame) => { f with seq := i }) (List.range x.unacked.length) x.unacked
    let d := d.startTraining l 2
    let d := d.modLink l fun x =>
      { x with restart := true, unacked := frames, resend := [], resendFirst := false, txSeq := frames.length, rxSeq := 0, nakSent := false,
               ackOwed := none, nakOwed := none, crdOwed := [], markOwed := none }
    d.captureState l

/-- PING is answered with a PONG (R383). -/
def Dev.takePing (d : Dev) (l : Link) (token : Nat) : Dev :=
  if (d.link l).state = .training then d.modLink l fun x => { x with pingOwed := x.pingOwed ++ [token] } else d

/-- The PONG leaves (R383). -/
def Dev.sendPong (d : Dev) (l : Link) (turn : Nat) : Dev :=
  match (d.link l).pingOwed with
  | t :: ts => d.modLink l fun x => { x with pingOwed := ts, sent := .pong t turn }
  | [] => d

/-- A PONG gives one measurement, kept doubled (R383). -/
def Dev.takePong (d : Dev) (l : Link) (delay16 turn : Nat) : Dev :=
  let x := d.link l
  if x.state = .training ∧ x.step = 4 ∧ x.pongs.length < 8 then
    d.modLink l fun x => { x with pongs := x.pongs ++ [(delay16 : Int) - 16 * (640 + turn)] }
  else d

/-- K28.5 codes that a receiver knows (R385). -/
def knownCode (c : Nat) : Bool :=
  decide (c ≤ 4) || c == 0x10 || c == 0x11 || c == 0x20 || (decide (0x30 ≤ c) && decide (c ≤ 0x3F))

/-- An ordered set with an unknown code is counted and ignored (R385). -/
def Dev.unknownSet (d : Dev) (l : Link) (code : Nat) : Dev :=
  if d.linkLive l && !knownCode code then { d with rg := { d.rg with malform := satInc 14 d.rg.malform } } else d

/-! ### The transmitter (R392) -/

/-- The book of a link's class (R462): 0 to 3 logical DN, 4 to 7 logical UP. -/
def Dev.ringBook (d : Dev) (l : Link) (cls : Nat) : Nat := (if d.linkNo l = 1 then 0 else 4) + cls

/-- The unit of a frame or MARK that the device originates (R473): the CRC-32 of its bytes, the low 28 bits. -/
def Dev.emitFrame (d : Dev) (l : Link) (typ : Nat) (bs : List Byte) : Dev :=
  let c := crc32 bs
  d.emit 4 (typ + 16 * d.linkNo l) 0 (c % 16384) (c / 16384 % 16384)

/-- A MARK leaves; the anchor's own carries the cycles since slot 0 (R400). -/
def Dev.sendMark (d : Dev) (l : Link) (tick acc hops : Nat) : Dev :=
  let own := d.isAnchor
  let acc := if own then (48 * d.ck.slot) % 16777216 else acc
  let d := d.modLink l fun x => { x with markOwed := none, sent := .mark tick acc hops }
  if own then d.emitFrame l 0 (markBytes tick acc hops) else d

/-- An ordered set between frames: ACK, NAK or CRD (R392). -/
def Dev.sendSet (d : Dev) (l : Link) : Option Dev :=
  let x := d.link l
  match x.ackOwed, x.nakOwed, x.crdOwed with
  | some s, _, _ => some (d.modLink l fun x => { x with ackOwed := none, sent := .ack s })
  | none, some s, _ => some (d.modLink l fun x => { x with nakOwed := none, sent := .nak s })
  | none, none, c :: cs =>
    let n := (c :: cs).filter fun y => y == c
    some (d.modLink l fun x => { x with crdOwed := x.crdOwed.filter (· != c), sent := .crd c n.length })
  | none, none, [] => none

/-- A frame of a class waits for a credit: it gives up its turn, counted once (R100, R392). -/
def Dev.frameStalls (d : Dev) (l : Link) (cls : Nat) : Dev :=
  if (d.link l).waiting.contains cls then d
  else
    let d := d.modLink l fun x => { x with waiting := cls :: x.waiting }
    { d with rg := { d.rg with stalls := satInc 14 d.rg.stalls } }.stall (d.ringBook l cls)

/-- A frame starts: it takes its credit and its link sequence (R391, R393, R394). -/
def Dev.startFrame (d : Dev) (l : Link) (f : Frame) : Dev :=
  let c := f.typ.cls
  let seq := (d.link l).txSeq
  d.modLink l fun x =>
    { x with txSeq := (seq + 1) % 4096, unacked := x.unacked ++ [{ seq := seq, frame := f, sentAt := d.now }], sent := .frame seq f,
             credits := x.credits.modify c (· - 1), held := x.held.modify c (· + 1), waiting := x.waiting.filter (· != c) }

/-- The sender holds a credit of a class. -/
def Dev.hasCredit (d : Dev) (l : Link) (cls : Nat) : Bool := decide (0 < (d.link l).credits.getD cls 0)

/-- The frame that is resent next: resends keep their original order among themselves (R394). -/
def LinkSt.nextResend (x : LinkSt) : Option SentFrame :=
  x.resend.head?.bind fun n => x.unacked.find? fun f => f.seq == n

/-- A resend (R394): it holds its credit already. -/
def Dev.sendAgain (d : Dev) (l : Link) (f : SentFrame) : Dev :=
  let again : SentFrame → SentFrame := fun g => if g.seq = f.seq then { g with sentAt := d.now } else g
  let d := d.modLink l fun x =>
    { x with resend := x.resend.drop 1, resendFirst := x.resendFirst && decide (1 < x.resend.length),
             unacked := x.unacked.map again, sent := .frame f.seq f.frame }
  if d.linkNo l = 0 then { d with rg := { d.rg with retxUp := satInc 14 d.rg.retxUp } }
  else { d with rg := { d.rg with retxDn := satInc 14 d.rg.retxDn } }

/-- A local frame starts, and its unit is formed (R473). -/
def Dev.sendLocal (d : Dev) (l : Link) (f : Frame) : Dev :=
  let seq := (d.link l).txSeq
  (d.startFrame l f).emitFrame l f.typ.code (f.bytes seq)

/-- What a class has to send, in the order of R392 step 4; `none` where it sends nothing, with the stall it counts. -/
def Dev.sendClass (d : Dev) (l : Link) (cls : Nat) : Dev × Bool :=
  let x := d.link l
  match x.nextResend.filter fun f => f.frame.typ.cls == cls with
  | some f => (d.sendAgain l f, true)
  | none =>
    match x.through.find? fun f => f.1.typ.cls == cls with
    | some f =>
      if d.hasCredit l cls then
        let d := d.modLink l fun x => { x with through := x.through.erase f }
        let d := d.startFrame l f.1
        (match f.2 with
          | some k => d.oweCredit k cls
          | none => d, true)
      else (d.frameStalls l cls, false)
    | none =>
      match x.locals.find? fun f => f.typ.cls == cls with
      | some f =>
        if d.hasCredit l cls then
          ((d.modLink l fun x => { x with locals := x.locals.erase f }).sendLocal l f, true)
        else (d.frameStalls l cls, false)
      | none =>
        if cls = 1 ∧ l = d.outDown then
          if d.hasCredit l 1 then
            match d.repNext with
            | (d, some f) => (d.sendLocal l f, true)
            | (d, none) => (d, false)
          else if d.rg.roping.isSome then (d.frameStalls l 1, false) else (d, false)
        else (d, false)

/-- The first class that sends. -/
def Dev.sendFrames (d : Dev) (l : Link) : List Nat → Dev
  | [] => d.modLink l fun x => { x with sent := .idle }
  | c :: cs =>
    let (d, sent) := d.sendClass l c
    if sent then d else d.sendFrames l cs

/-- A transmitter chooses what to send next (R392); after a retrain or a restart every unacknowledged frame goes first (R395, R433;
DEDUCED, log entry 105). -/
def Dev.transmit (d : Dev) (l : Link) : Dev :=
  match (d.link l).markOwed with
  | some (t, a, h) => d.sendMark l t a h
  | none =>
    match d.sendSet l with
    | some d => d
    | none =>
      match (d.link l).nextResend.filter fun _ => (d.link l).resendFirst with
      | some f => d.sendAgain l f
      | none => d.sendFrames l [0, 1, 2, 3]

/-- LINK_TRANSMIT: in a replay the played run transmits to the output stream alone, and the wire carries only the ordered
sets that maintain it (R480). -/
def Dev.linkTransmit (d : Dev) (l : Link) : Dev :=
  let d := if d.linkLive l then d.transmit l else d
  if d.pw.mode = .replay then d.onWire fun d => (d.sendSet l).getD d else d

end Sys2Proof.Machine
end

