-- ==== Sys2Proof/Machine/TickLog.lean ====
section
/-!
DEFINITION. The tick entries of the logbook: the TICK header, the END record, the output digest, the frozen window
(R466 to R475).
-/
namespace Sys2Proof.Machine
open Sys2Proof

/-! ### The output digest (R473) -/

/-- The order of output units within one slot: port A, port B, pins, ring, then the other kinds ascending (R468, R473). -/
def OutUnit.rank (u : OutUnit) : Nat :=
  if u.kind = 1 then field (u.words.getD 0 0#14).toNat 4 1
  else if u.kind = 3 then 2 else if u.kind = 4 then 3 else 4 + u.kind

/-- A unit does not follow another in the order of the stream. -/
def OutUnit.upTo (x y : OutUnit) : Bool := decide (x.slot < y.slot) || (x.slot == y.slot && decide (x.rank ≤ y.rank))

/-- Put a unit in its place, after those formed before it that share its place. -/
def insertUnit (u : OutUnit) : List OutUnit → List OutUnit
  | [] => [u]
  | x :: xs => if x.upTo u then x :: insertUnit u xs else u :: x :: xs

/-- The units of a tick in the order of the stream. -/
def orderUnits (us : List OutUnit) : List OutUnit := us.foldl (fun l u => insertUnit u l) []

/-- The CRC-32 of a stream of units. -/
def unitsCrc (us : List OutUnit) : Nat := crc32 (wordsBytes (us.flatMap OutUnit.words))

/-- Sub-digest `i` of a tick of length `len` (R473). -/
def subDigest (us : List OutUnit) (len i : Nat) : Nat :=
  unitsCrc (us.filter fun u => decide (i * len / 8 ≤ u.slot) && decide (u.slot < (i + 1) * len / 8)) % 16384

/-- The tick digest and the sub-digests (R473). -/
def digests (us : List OutUnit) (len : Nat) : Nat × List Nat :=
  (unitsCrc us % 2 ^ 28, (List.range 8).map (subDigest us len))

/-- Words 1 to 10 of an END record (R468). -/
def digestWords (x : Nat × List Nat) : List Word := twoWords x.1 ++ x.2.map wd

/-! ### The entry of a tick (R466 to R472, R474) -/

/-- Capture runs in a mode (R466). -/
def Dev.captures (d : Dev) (m : Mode) : Bool :=
  d.lb.enable && (m == .run || m == .hold || m == .limp || m == .service || m == .store)

/-- The TICK header (R468). -/
def Dev.tickHeader (d : Dev) (m : Mode) (t : TtName) (base : Nat) : List Word :=
  [wd (1 + 16 * m.code + 256 * base + 1024 * b2n d.lb.scope + 2048 * t.code)]
    ++ toWords (d.ck.tick % 2 ^ 42) 3 ++ twoWords d.ck.curLen

/-- A tick's entry begins, in a mode and with a timetable, where capture runs (R466, R468). -/
def Dev.beginEntry (d : Dev) (m : Mode) (t : TtName) : Dev :=
  let on := d.captures m
  let d := { d with lb := { d.lb with capturing := on, cur := [], gap := false, cutA := false, cutB := false } }
  if on then
    let (d, ok) := d.queuePiece 6
    if ok then
      let h : LogRec := { kind := 1, slot := 0, words := d.tickHeader m t d.lb.baseCode }
      { d with lb := { d.lb with cur := [h], baseCode := 0 } }
    else d
  else d

/-- The words of items with the last flag set on the last of them; each item has two words, or three with a long delta. -/
def markLast : Nat → List Word → List Word
  | n + 1, x :: y :: r =>
    let long := if field y.toNat 2 11 = 2047 then 1 else 0
    if r.length ≤ long then x :: (y ||| 0x2000#14) :: r else x :: y :: r.take long ++ markLast n (r.drop long)
  | _, r => r

/-- A port's record as its tick leaves it (R469): the last item of a transaction that goes on is the last of the record, and a
record without items says so (DEDUCED, log entry 41). -/
def LogRec.closed (r : LogRec) : LogRec :=
  if r.kind ≠ 2 ∧ r.kind ≠ 3 then r
  else match r.words with
    | [t, a, b, c, e] => { r with words := [t ||| 0x0080#14, a, b, c, e] }
    | ws => { r with words := ws.take 5 ++ markLast ws.length (ws.drop 5) }

/-- The END record closes the entry (R471, R472, R474). It has its own words of the queue; where the ring has no room for
it, the tick leaves no entry. -/
def Dev.endEntry (d : Dev) (x : Nat × List Nat) : Dev :=
  let e : LogEntry :=
    { tick := d.ck.tick % 2 ^ 42,
      words := d.lb.cur.flatMap (fun r => r.closed.words) ++ [wd (15 + 16 * b2n d.lb.gap)] ++ digestWords x }
  let d := if d.lb.gap then { d with lb := { d.lb with gaps := satInc 14 d.lb.gaps } } else d
  let queue := if d.lb.queue.sum ≤ 53 then d.lb.queue ++ [11] else d.lb.queue
  match makeRoom d.lb.entries d.exportLock d.logRoom e.words.length with
  | some es => { d with lb := { d.lb with entries := es ++ [e], queue := queue, cur := [] } }
  | none => { d with lb := { d.lb with dropped := satInc 14 d.lb.dropped, cur := [] } }

/-- A unit of the first slot after the tick, as the next tick has it (R304, R473). -/
def OutUnit.carried (u : OutUnit) : OutUnit :=
  { u with slot := 0, words := (u.words.set 1 0#14).set 2 0#14 }

/-- Step 4 of R22: the digest of the ended tick, and its END record (R474). The answer holds the digests. -/
def Dev.closeTick (d : Dev) : Dev × (Nat × List Nat) :=
  let mine := d.lb.units.filter fun u => decide (u.slot < d.ck.curLen)
  let after := (d.lb.units.filter fun u => decide (d.ck.curLen ≤ u.slot)).map OutUnit.carried
  let x := digests (orderUnits mine) d.ck.curLen
  let d := if d.emits then { d with lb := { d.lb with digest := x.1 } } else d
  let d := if d.lb.capturing then d.endEntry x else d
  ({ d with lb := { d.lb with units := after, cur := [] } }, x)

/-- The entry is closed in the middle of its tick, and capture stops (R146). -/
def Dev.stopCapture (d : Dev) : Dev :=
  let x := digests (orderUnits d.lb.units) d.ck.curLen
  let d := if d.emits then { d with lb := { d.lb with digest := x.1 } } else d
  let d := if d.lb.capturing then d.endEntry x else d
  { d with lb := { d.lb with units := [], cur := [], capturing := false } }

/-! ### Freezing (R475) -/

/-- Put a frozen entry back among the live ones, by its tick. -/
def insertEntry (e : LogEntry) : List LogEntry → List LogEntry
  | [] => [e]
  | x :: xs => if x.tick < e.tick then x :: insertEntry e xs else e :: x :: xs

/-- The newest of a list of entries, newest first, while `n` entries and `room` words last. -/
def takeNewest : Nat → Nat → List LogEntry → List LogEntry
  | 0, _, _ => []
  | _, _, [] => []
  | n + 1, room, e :: es => if e.words.length ≤ room then e :: takeNewest n (room - e.words.length) es else []

/-- An export locks no more entries than a freeze leaves live (R476). -/
def Dev.trimLocks (d : Dev) (n : Nat) : Dev :=
  let cut : Cmd → Cmd := fun c => { c with lock := min c.lock n }
  { d with pl := { d.pl with cmdA := d.pl.cmdA.map cut, cmdB := d.pl.cmdB.map cut } }

/-- A freeze that is due takes effect in slot 0, after the END record (R475). The frozen entries leave the live logbook;
those of the frozen logbook it replaces count among the newest. -/
def Dev.takeFreeze (d : Dev) : Dev :=
  match d.lb.frzRec, d.lb.frzCmd with
  | none, [] => d
  | r, ps =>
    let all := match d.lb.frozen with
      | some f => f.entries.foldl (fun l e => insertEntry e l) d.lb.entries
      | none => d.lb.entries
    let win := takeNewest d.lb.keep 16384 all.reverse
    let f : Frozen := { entries := win.reverse, command := r.isNone, seq := r.getD 0xFFFFFFF }
    let live := all.take (all.length - win.length)
    let d := { d with lb := { d.lb with entries := live, frozen := some f, frzRec := none, frzCmd := [] } }.trimLocks live.length
    ps.foldl (fun d p => d.finishIf p 0x0070 0) (d.fire 51)

end Sys2Proof.Machine
end

