-- ==== Sys2Proof/Machine/Modes.lean ====
section
/-!
DEFINITION. Modes, power and wake (chapter 06), the always-on pins, JTAG (chapter 20): what every stimulus does in every
mode, up to the first tick of RUN or LIMP.
-/
namespace Sys2Proof.Machine
open Sys2Proof

/-! ### Leaving a mode -/

/-- DEV_PWR.sleep_pending: a request deferred in HOLD, until it acts or is withdrawn (R133). -/
def Dev.updSleep (d : Dev) : Dev :=
  let asks := !d.pl.sleepReq.isEmpty || !d.on
  let here := (d.pw.mode == .hold) || (d.pw.mode == .run && d.pw.sleepPending)
  { d with pw := { d.pw with sleepPending := asks && here } }

/-- A port's command that a mode does not allow receives 0x3FF6; a passed token waits for R521 to judge it (R277, R287). -/
def Dev.abandonFor (d : Dev) (m : Mode) (p : Port) : Dev :=
  match d.cmd p with
  | some c =>
    if (cmdModes c.op).contains m || (d.pl.svcReq.any fun x => x.1 == p) then d else d.abandonCmd p 0x3FF6
  | none => d

/-- An update is abandoned when the device leaves RUN, LIMP or SERVICE; its command in progress receives 0x3FF6 (R122). -/
def Dev.dropUpdate (d : Dev) : Dev :=
  if (d.cf.updState == 1) && (d.pw.mode == .run || d.pw.mode == .limp || d.pw.mode == .service) then
    d.closeUpdate.endUpdateCmd d.cf.updOwner 0x3FF6
  else d

/-- A change between modes that use an image timetable: what the old mode carried is abandoned (R122, R277). -/
def Dev.changeMode (d : Dev) (m : Mode) : Dev :=
  (((d.dropUpdate.abandonFor m .a).abandonFor m .b).setMode m).updSleep

/-- Every command that lacks its return code receives 0x3FF6: STORE or the RETAIN entry sequence begins (R277). -/
def Dev.abandonAll (d : Dev) : Dev := (d.dropUpdate.abandonCmd .a 0x3FF6).abandonCmd .b 0x3FF6

/-- A signature in progress is lost; its record is signed again from step 1, ahead of any other work on a record (R148, R363). A
verification in progress is begun again too. -/
def Dev.dropSignature (d : Dev) : Dev :=
  let keep : SealJob → Bool := fun j => match j with
    | .record _ => true
    | _ => false
  { d with ks := { d.ks with active := d.ks.active.filter keep, sigDone := 0, auditDone := 0, sigSince := d.now } }

/-- The entries of the active timetable that contain the current slot run from it (R68); it is the first slot of a keel store entry
that a switch enters part-way (R234). The STORE timetable's stores begin under R236. -/
def Dev.enterWindows (d : Dev) : Dev :=
  let ws := (d.ttOf d.ck.active).windows
  let run := (List.range ws.length).filter fun i => match ws[i]? with
    | some w => w.covers d.ck.curLen d.ck.slot && decide (w.start d.ck.curLen < d.ck.slot)
    | none => false
  let d : Dev := { d with ck := { d.ck with openEntries := run } }
  if d.ck.active = .store then d
  else run.foldl (fun d i => match ws[i]? with
    | some w => d.keelEntry w.task
    | none => d) d

/-- A switch of timetable at a check point (R67, R68, R83). -/
def Dev.switchTt (d : Dev) (t : TtName) : Dev := (d.retable t).enterWindows

/-! ### OFF and WAKE -/

/-- WAKE begins: its first attempt starts (R135, R155). -/
def Dev.enterWake (d : Dev) (src : WakeSrc) (short : Bool) : Dev :=
  let d := { d with pw := { d.pw with wakeSrc := src, wakeAt := d.now, shortWake := short, shortPath := short,
                                      attempts := 0, attempting := true, offLatched := false, onLatched := false,
                                      testDone := false, sleepPending := false } }
  d.setMode .wake

/-- WAKE counts as asserted only while its class is Closed (R449). -/
def Dev.wakeClosed (d : Dev) : Bool := decide (d.hn.pins.wake.cls = 1)

/-- OFF is left by levels, once PFAIL# is deasserted, and never while EXTEST is the current instruction (R131, R508). -/
def Dev.offEval (d : Dev) (src : WakeSrc) : Dev :=
  if (d.pw.mode == .off) && !d.pfail && !(d.jt.ir == .extest) && (d.on || d.wakeClosed) then
    let src := if src = .on ∧ d.on = false then WakeSrc.wakePin else src
    let d := d.coldStart.enterWake src false
    { d with pw := { d.pw with wakePort := .a } }
  else d

/-- Nothing of a port's traffic outlives the core: what has not crossed the wire, and what waits for a slot. -/
def PortSt.halt (x : PortSt) : PortSt :=
  { x with resetDue := none, incoming := [], wq := [], rq := [], driven := [], sfdpOut := [], touches := [], merge := [],
           mergeFree := 8, rmw := [], resetEnabled := false }

/-- The core stops: no tick, no event edges, no port traffic, links OFF, TICK not driven (R152). -/
def Dev.coreOff (d : Dev) : Dev :=
  let d := (d.switchTo .none).endHistory false
  let d := (d.modPort .a PortSt.halt).modPort .b PortSt.halt
  let off : LinkSt → LinkSt := fun x => { x with state := .off, step := 0, beacon := none, retrain := false }
  { d with ck := { d.ck with running := false, tickPin := none }, ev := { d.ev with live := false, first := [] },
           rg := { d.rg with up := off d.rg.up, dn := off d.rg.dn },
           lb := { d.lb with capturing := false, replay := none },
           kl := { d.kl with seqStart := none, commit := none }, hn := { d.hn with trigger := none } }

/-- A replay is left other than by its end: the live inputs and links are what the device shows again; LOG_RSTAT keeps its state
(R129, R482). -/
def Dev.dropPlayed (d : Dev) : Dev :=
  match d.pw.mode, d.lb.replay with
  | .replay, some r =>
    { d with hn := { d.hn with pins := r.pins }, rg := { d.rg with up := r.liveUp, dn := r.liveDn },
             lb := { d.lb with replay := none, baseCode := 3 } }
  | _, _ => d

/-- OFF (R139, R140, R151, R499): retained state is lost; then R131 judges the levels. -/
def Dev.enterOff (d : Dev) : Dev :=
  let lost := d.pw.clockLost
  let d := (d.dropPlayed.coreOff).setMode .off
  let d := { d with pw := { d.pw with offLatched := false, onLatched := false, clockLost := false, attempting := false,
                                      testDone := false, shortWake := false, retainEntry := false, entryWake := none,
                                      sleepPending := false } }
  d.updPins.offEval (if lost then .pfail else .on)

/-- A latched off request acts at a phase boundary (R139); otherwise the start goes on. -/
def Dev.phase (d : Dev) (f : Dev → Dev) : Dev := if d.pw.offLatched then d.enterOff else f d

/-! ### Waking from RETAIN (R149, R440) -/

/-- The bit of DEV_WAKE_EN of a source; ON has none. -/
def wakeBit (src : WakeSrc) (p : Port) : Option Nat :=
  match src with
  | .wakePin => some 0
  | .up => some 1
  | .dn => some 2
  | .portCs => some (if p = .a then 3 else 4)
  | .timer => some 5
  | _ => none

/-- Slots of wake_ms (R438). -/
def Dev.wakeSlots (d : Dev) : Nat := d.rg.wakeMs * 1000000

/-- The node drives the beacon out of a link (R438, R440). -/
def Dev.driveBeacon (d : Dev) (l : Link) : Dev := d.modLink l fun x => { x with beacon := some (d.now + d.wakeSlots) }

/-- The beacon of a node that leaves RETAIN by ON or the WAKE pin (R440): one beacon, out of both links. -/
def Dev.wakeBeacon (d : Dev) (src : WakeSrc) : Dev :=
  if (src == .on || src == .wakePin) && d.hasRing then
    let d := (d.driveBeacon .up).driveBeacon .dn
    { d with rg := { d.rg with beacons := satInc 14 d.rg.beacons } }
  else d

/-- The links are OFF from WAKE on; the node still knows that it was passing (R152, R430, R436). -/
def Dev.wakeLinks (d : Dev) : Dev :=
  let off : LinkSt → LinkSt := fun x => { x with state := .off, step := 0 }
  { d with rg := { d.rg with wasPass := d.rg.up.state == .pass, up := off d.rg.up, dn := off d.rg.dn } }

/-- The device leaves RETAIN on the short path (R149, R150). -/
def Dev.leaveRetain (d : Dev) (src : WakeSrc) (p : Port) : Dev :=
  let d := (d.wakeLinks.wakeBeacon src).enterWake src true
  { d with pw := { d.pw with wakePort := p, entryWake := none } }

/-- The order of R149 among the sources that wake from RETAIN. -/
def wakeRank (src : WakeSrc) (p : Port) : Nat :=
  match src with
  | .on => 0
  | .wakePin => 1
  | .up => 2
  | .dn => 3
  | .portCs => if p = .a then 4 else 5
  | _ => 6

/-- The source is enabled (R149). -/
def Dev.wakeOk (d : Dev) (src : WakeSrc) (p : Port) : Bool :=
  match wakeBit src p with
  | some b => bit d.pw.wakeEn b
  | none => true

/-- A source that arrives during the entry sequence waits, and an ON is latched (R141, R147). Of the sources of one always-on clock
cycle the first in the order of R149 is recorded; sources of one slot share a cycle (DESIGN CHOICE, log entry 79). -/
def Dev.entrySource (d : Dev) (src : WakeSrc) (p : Port) : Dev :=
  let d := if src = .on then { d with pw := { d.pw with onLatched := true } } else d
  let first := match d.pw.entryWake with
    | some s => (d.pw.entryAt == d.now) && decide (wakeRank src p < wakeRank s d.pw.wakePort)
    | none => true
  if first then { d with pw := { d.pw with entryWake := some src, wakePort := p, entryAt := d.now } } else d

/-- A source in the slot in which another has woken the device: the first in the order of R149 is recorded. -/
def Dev.tieSource (d : Dev) (src : WakeSrc) (p : Port) : Dev :=
  if d.pw.shortWake && (d.pw.wakeAt == d.now) && decide (wakeRank src p < wakeRank d.pw.wakeSrc d.pw.wakePort) then
    let d := if d.pw.wakeSrc = .wakePin then d else d.wakeBeacon src
    { d with pw := { d.pw with wakeSrc := src, wakePort := p } }
  else d

/-- A wake source in RETAIN, if enabled (R149). -/
def Dev.wakeSource (d : Dev) (src : WakeSrc) (p : Port) : Dev :=
  if d.wakeOk src p then
    match d.pw.mode with
    | .retain => if d.pw.retainEntry then d.entrySource src p else d.leaveRetain src p
    | .wake => d.tieSource src p
    | _ => d
  else d

/-! ### STORE (R129, R130, R236) -/

/-- STORE has ended: the levels of ON and PFAIL# decide (R130, R499). -/
def Dev.storeEnd (d : Dev) : Dev :=
  let d := d.endStores
  let d := { d with pw := { d.pw with onLatched := false } }
  if d.on ∧ ¬ d.pfail then
    let d := d.coreOff
    let d := { d with pw := { d.pw with limpCause := if d.pl.locked then 2 else 0, wakePort := .a } }
    d.enterWake .pfail false
  else d.enterOff

/-- STORE begins at the slot at which its timetable owns the banks (R129, R236, R277). -/
def Dev.enterStore (d : Dev) : Dev :=
  let d := (d.dropPlayed.abandonAll.dropSignature).endHistory false
  let d := { d with pl := { d.pl with limpDue := none }, hn := { d.hn with trigger := none } }
  let d := (((d.switchTt .store).setMode .store).updSleep).beginStores
  if d.keelSilent then d.storeEnd else d

/-! ### RETAIN (R144 to R151) -/

/-- A word that a port has received is written, outside any timetable. -/
def Dev.drainItem (d : Dev) (p : Port) (i : WriteItem) : Dev :=
  match i with
  | .full a w _ => if a < 0x1F0000 then d.portWrite p a w false else d.regWrite p.party a w
  | .merged a _ => d.mergeCommit p a

/-- The words that a port has received are written before its merges resolve. -/
def Dev.drainWrites (d : Dev) (p : Port) : Dev :=
  let q := (d.port p).wq
  q.foldl (fun d i => d.drainItem p i) (d.modPort p fun x => { x with wq := [] })

/-- A port stops: what it received is written and its halves resolve (R199); what its burst has not read is answered with code 11,
and what has not arrived changes nothing (R145). -/
def Dev.quietPort (d : Dev) (p : Port) : Dev :=
  let d := (d.drainWrites p).ageAll p
  let d := d.rmwAll p (2 * (d.port p).rmw.length)
  let rest := (d.port p).rq
  let d := d.modPort p fun x => { x with rq := [], incoming := [], resetEnabled := false }
  rest.foldl (fun d i => d.driveNow p true i 0#14 3) d

/-- RETAIN entry begins at a check point (R144 to R146, R148, R277, R282). -/
def Dev.enterRetain (d : Dev) : Dev :=
  let d := d.pl.sleepReq.foldl (fun d p => d.finishIf p 0x0050 0) d
  let d := { d with pl := { d.pl with sleepReq := [] } }
  let d := (d.abandonAll.dropSignature.endHistory true).countWork
  let d := { d with pw := { d.pw with retainEntry := true, entryWake := none, sleepPending := false } }
  let d := (d.switchTo .none).setMode .retain
  let d := d.stopCapture
  let d := { d with ck := { d.ck with running := false, openEntries := [], tickPin := none },
                    lb := { d.lb with baseCode := 2 }, hn := { d.hn with trigger := none } }
  let d := ((d.quietPort .a).quietPort .b).updPins.beginStores
  if d.keelSilent then d.endStores else d

/-- The stripe buffer is written back (R211). -/
def Dev.stripeBack (d : Dev) : Dev :=
  match d.ar.stripe with
  | some j =>
    let mem := ((List.range j.buf.length).zip j.buf).foldl (fun m x => cellsSet m (j.base + x.1) x.2.code) d.ar.mem
    { d with ar := { d.ar with mem := mem, stripe := none } }
  | none => d

/-- The links on the way into RETAIN (R430, R431). -/
def Dev.restLink (d : Dev) (l : Link) : Dev :=
  if !d.hasRing || d.cf.copySel == 2 then d.modLink l fun x => { x with state := .off, step := 0 }
  else
    let send := (d.link l).state == .active
    let d := if send then d.modLink l fun x => { x with sent := if d.rg.agreed then .sleep else .passon } else d
    d.modLink l fun x => { x with state := if d.rg.agreed then .listen else .pass, step := 0, retrain := false }

/-- Steps 3 to 5 of R145, then R147. -/
def Dev.retainDone (d : Dev) : Dev :=
  if d.pw.retainEntry && d.kl.seqStart.isNone then
    let d := ((d.stripeBack.restLink .up).restLink .dn)
    let d := { d with ev := { d.ev with live := false }, pw := { d.pw with retainEntry := false, onLatched := false } }
    let d := d.updPins
    if d.pfail then d.enterOff
    else match d.pw.entryWake with
      | some src => d.leaveRetain src d.pw.wakePort
      | none => { d with pw := { d.pw with clockLost := false } }
  else d

/-! ### The pins ON, PFAIL#, TEST and the clock (R127 to R147, R499, R500) -/

/-- The modes of a start. -/
def Mode.starting : Mode → Bool
  | .wake | .load | .fill | .test => true
  | _ => false

/-- ON becomes high. -/
def Dev.onRises (d : Dev) : Dev :=
  match d.pw.mode with
  | .off => d.offEval .on
  | .retain | .wake => d.wakeSource .on .a
  | .store => { d with pw := { d.pw with onLatched := true } }
  | _ => d.updSleep

/-- ON becomes low: latched in a start, at once between two attempts (R139, R143). -/
def Dev.onFalls (d : Dev) : Dev :=
  if d.pw.mode.starting then
    if d.pw.mode = .wake ∧ d.pw.attempting = false then d.enterOff
    else { d with pw := { d.pw with offLatched := true } }
  else d.updSleep

/-- PFAIL# becomes asserted: a start ends at once, and RETAIN is left (R140, R151); the other modes act at a check point. -/
def Dev.pfailRises (d : Dev) : Dev :=
  if d.pw.mode.starting then d.enterOff
  else if d.pw.mode = .retain ∧ d.pw.retainEntry = false then d.enterOff
  else d

/-- PFAIL# becomes deasserted: OFF may be left (R131). -/
def Dev.pfailFalls (d : Dev) : Dev := d.offEval .pfail

/-- The pins take new levels, and the changes of ON and PFAIL# that count act, PFAIL# first. -/
def Dev.newLevels (d : Dev) (f : Power → Power) : Dev :=
  let on := d.on
  let pf := d.pfail
  let d := { d with pw := f d.pw }
  let d := if !pf && d.pfail then d.pfailRises else d
  let d := if pf && !d.pfail then d.pfailFalls else d
  if !on && d.on then d.onRises else if on && !d.on then d.onFalls else d

/-- A live change of ON is captured, except in a replay, where it is ignored (R470, R479). -/
def Dev.onPinTo (d : Dev) (v : Bool) : Dev :=
  if d.pw.onPin = v then d
  else (d.capturePin 0 (b2n v)).newLevels fun x => { x with onPin := v }

/-- A change of PFAIL# is captured and acts. -/
def Dev.pfailPinTo (d : Dev) (v : Bool) : Dev :=
  if d.pw.pfailPin = v then d
  else (d.capturePin 1 (b2n v)).newLevels fun x => { x with pfailPin := v }

/-- The always-on domain watches the clock in every mode after WAKE while the core runs (R499). -/
def Dev.clockLoss (d : Dev) : Dev :=
  if (d.pw.mode == .off) || (d.pw.mode == .wake) || (d.pw.mode == .retain && !d.pw.retainEntry) then d
  else d.newLevels fun x => { x with clockLost := true }

/-! ### WAKE, LOAD, FILL, TEST (R135 to R143) -/

/-- Every link starts training at step 1, not under the harbour image (R152, R380). -/
def Dev.trainAll (d : Dev) : Dev :=
  if d.cf.copySel = 2 then d else (d.startTraining .up 1).startTraining .dn 1

/-- LOAD has ended where FILL has begun: the links train. -/
def Dev.afterLoad (d : Dev) : Dev := if d.pw.mode = .fill then d.trainAll else d

/-- The code of a condition in DEV_MODE.wake_fail (R155). -/
def WakeCond.code : WakeCond → Nat
  | .regulator => 1
  | .crystal => 2
  | .pll => 3

/-- An attempt starts again after its wait (R142). -/
def Dev.attemptStart (d : Dev) : Dev :=
  if d.pw.mode = .wake then { d with pw := { d.pw with attempting := true } } else d

/-- An attempt has failed (R142): recorded and counted; the fourth sets cause 5. -/
def Dev.attemptFails (d : Dev) (c : WakeCond) : Dev :=
  if d.pw.mode = .wake ∧ d.pw.attempting = true then
    let n := d.pw.attempts + 1
    let cause := if n = 4 then 5 else d.pw.limpCause
    let d := { d with pw := { d.pw with wakeFail := WakeCond.code c, wakeFails := satInc 14 d.pw.wakeFails, attempts := n,
                                        attempting := false, limpCause := cause } }
    d.updPins.phase id
  else d

/-- A successful attempt clears cause 5 (R143). -/
def Dev.clearCause5 (d : Dev) : Dev :=
  if d.pw.limpCause = 5 then
    { d with pw := { d.pw with limpCause := if d.pl.locked then 2 else 0 } }.updPins
  else d

/-- LOAD begins: the SFDP and both headers are read (R104, R114, R490). -/
def Dev.enterLoad (d : Dev) (f : FlashId) (ha hb : List Byte) : Dev :=
  let d := { d with pw := { d.pw with shortPath := false, shortWake := false, attempting := false } }
  ((d.setMode .load).loadReset.readHeaders f ha hb).nextCandidate.afterLoad

/-- A candidate's checks decide (R114): it is loaded, or the next one's turn comes, or the harbour image is loaded. -/
def Dev.copyChecked (d : Dev) (copy : List Byte) : Dev :=
  match d.pw.mode, d.cf.cands with
  | .load, c :: cs =>
    d.phase fun d =>
      let r := copyReason copy false
      if r = 0 then ((d.setReason c.copy 0).takeCopy c.copy copy).endLoad.afterLoad
      else ((d.setReason c.copy r).skipBad cs).nextCandidate.afterLoad
  | _, _ => d

/-- FILL ends: the map, the zeroed array, the recall, the records and the tallies (R200, R239 to R241, R357, R370). Under the harbour
image the keel store is not recalled (R117). -/
def Dev.fillDone (d : Dev) : Dev :=
  if d.pw.mode = .fill then
    d.phase fun d =>
      let harbour := d.cf.copySel = 2
      let d := if harbour then d else d.recallMap
      let d := { d with ar := { d.ar with mem := [], written := [] } }
      let d := if harbour then d else d.recallPages
      (d.rebuildRecords.decodeTallies).setMode .test
  else d

/-- TEST ends (R138): RUN or LIMP begins at the next tick boundary. Under the harbour image the cause stays as it was until LIMP is
entered (R117, R156). -/
def Dev.testEnd (d : Dev) (passed : Bool) : Dev :=
  if d.pw.mode = .test ∧ d.pw.testDone = false then
    d.phase fun d =>
      let cause := if passed || (d.cf.copySel == 2) then d.pw.limpCause else 3
      { d with pw := { d.pw with testDone := true, limpCause := cause } }
  else d

/-! ### Supplies and JTAG (R134, R498, R503, R508) -/

/-- What a collapse of VDD leaves (R498): the NV macros; and what VDD does not supply, the VDDIO domains and the level of the
TEST ball. The slot count and the count of draws are the model's own. -/
def Dev.collapse (d : Dev) : Dev :=
  { now := d.now, draws := d.draws,
    pw := { powered := false, testHigh := d.pw.testHigh },
    pa := { vddio := d.pa.vddio, highRange := d.pa.highRange, ready := d.pa.ready, rstLow := d.pa.rstLow },
    pb := { vddio := d.pb.vddio, highRange := d.pb.highRange, ready := d.pb.ready, rstLow := d.pb.rstLow },
    kl := { map0 := d.kl.map0, map1 := d.kl.map1, phys := d.kl.phys, nextOrder := d.kl.nextOrder } }

/-- VDD rises above its power-on threshold: the always-on domain starts in OFF (R134). -/
def Dev.powerOn (d : Dev) : Dev :=
  if d.pw.powered then d else { d.collapse with pw := { d.collapse.pw with powered := true } }

/-- VDD falls below its brown-out threshold (R498). -/
def Dev.brownOut (d : Dev) : Dev := if d.pw.powered then d.collapse else d

/-- A port's VDDIO rises and selects its I/O range (R503). -/
def Dev.vddioUp (d : Dev) (p : Port) (high : Bool) : Dev :=
  if (d.port p).vddio then d else d.modPort p fun x => { x with vddio := true, highRange := high, ready := false, resetAt := d.now }

/-- A port's VDDIO falls: the port is reset, and answers nothing (R134, R503). -/
def Dev.vddioDown (d : Dev) (p : Port) : Dev :=
  if (d.port p).vddio then
    let d := if d.pw.powered then d.portReset p else d
    d.modPort p fun x => { x with vddio := false, ready := false }
  else d

/-- An instruction is selected; where EXTEST is left, R131 applies (R508). -/
def Dev.jtagSelect (d : Dev) (ir : JtagIr) (reset : Bool) : Dev :=
  { d with jt := { d.jt with ir := ir, reset := reset } }.offEval .on

/-- EXTEST and SAMPLE/PRELOAD use the boundary register in OFF, and act as BYPASS in any other mode (R508): the register takes
the cells shifted in, and what was captured is shifted out. -/
def Dev.jtagBoundary (d : Dev) (ir : JtagIr) (cells : List Bool) : Dev :=
  if d.pw.mode = .off then
    let out := ofBits (Config.boundary d.draws)
    let d := { d with draws := d.draws + 1, jt := { d.jt with boundary := cells, shifted := out } }
    d.jtagSelect ir false
  else { d with jt := { d.jt with shifted := 0 } }.jtagSelect ir false

end Sys2Proof.Machine
end

