-- ==== Sys2Proof/Machine/Harness.lean ====
section
/-!
DEFINITION. The harness monitor (chapter 17, R447 to R455): the classes of WAKE, VBATS and the FRZ wires, the filtered pair
state, and what a change of them does.
-/
namespace Sys2Proof.Machine
open Sys2Proof

/-! ### The classes -/

/-- The class of WAKE from a measurement in mV (R448). -/
def wakeClass (m : Measurement) : Nat :=
  if m.wake ≤ -1000 then 5
  else if m.vdd + 1000 ≤ m.wake then 4
  else if 100 * m.wake < 5 * m.vdd then 3
  else if 10 * m.vdd ≤ 100 * m.wake ∧ 100 * m.wake ≤ 30 * m.vdd then 1
  else if 55 * m.vdd ≤ 100 * m.wake ∧ 100 * m.wake ≤ 85 * m.vdd then 0
  else if 92 * m.vdd ≤ 100 * m.wake ∧ m.wake ≤ m.vdd + 500 then 2
  else 6

/-- The fault classes of WAKE (R448). -/
def wakeFaulty (c : Nat) : Bool := decide (2 ≤ c)

/-- The class of VBATS from a measurement in mV and the reading in the other bias state (R450). -/
def vbatsClass (m : Measurement) : Nat :=
  if m.vbats ≤ -1000 then 5
  else if 1000 < (m.vbats - m.vbatsAlt).natAbs then 3
  else if m.vbats.natAbs ≤ 500 ∧ m.vbatsAlt.natAbs ≤ 500 then 4
  else if 500 < m.vbats ∧ m.vbats < 6000 then 1
  else if 6000 ≤ m.vbats ∧ m.vbats ≤ 32000 then 0
  else if 32000 < m.vbats then 2
  else 6

/-- The fault classes of VBATS (R450). -/
def vbatsFaulty (c : Nat) : Bool := decide (3 ≤ c)

/-- The class of an FRZ wire at `v` mV (R454). `opened` says that R453 finds it open. -/
def frzClass (m : Measurement) (w : FrzWire) (v : Int) (opened : Bool) : Nat :=
  if v ≤ -1000 then 5
  else if 6500 ≤ v then 4
  else if opened then 2
  else if m.frzP < 1500 ∧ m.frzN < 1500 ∧ m.lastLow.getD .n = w then 3
  else if 3500 < m.frzP ∧ 3500 < m.frzN ∧ m.lastHigh.getD .p = w then 7
  else if v < 1500 then 0
  else if 3500 ≤ v ∧ v ≤ 6000 then 1
  else 6

/-- The fault classes of an FRZ wire (R455). -/
def frzFaulty (c : Nat) : Bool := decide (2 ≤ c)

/-- A class changes after two consecutive measurements that give the same new class (R447). -/
def PinClass.measured (x : PinClass) (c : Nat) (faulty : Nat → Bool) : PinClass :=
  let cls := if c = x.cand then c else x.cls
  { cls := cls, cand := c, fault := faulty cls }

/-- The pair is BAD, or a wire is neither Low nor High (R455). -/
def Pins.frzBadNow (p : Pins) : Bool := p.pair == .bad || frzFaulty p.frzP.cls || frzFaulty p.frzN.cls

/-- The fault bit of PIN_FRZ is set at once (R455). -/
def Pins.frzSet (p : Pins) : Pins := if p.frzBadNow then { p with frzFault := true, frzOk := 0 } else p

/-- A measurement may clear the fault bit of PIN_FRZ: the second that shows no cause does (R455). -/
def Pins.frzClear (p : Pins) : Pins :=
  if p.frzBadNow then p
  else { p with frzOk := min 2 (p.frzOk + 1), frzFault := p.frzFault && decide (p.frzOk = 0) }

/-- The ratio of PIN_WAKE in units of 1/512, to the nearest, saturating (chapter 17, Registers; DEDUCED, log entry 47). -/
def wakeRatio (m : Measurement) : Nat :=
  if m.vdd ≤ 0 ∨ m.wake ≤ 0 then 0 else min 1023 ((1024 * m.wake + m.vdd) / (2 * m.vdd)).toNat

/-- The reading of PIN_VBATSV in 10 mV, to the nearest, saturating (chapter 17, Registers; DEDUCED, log entry 47). -/
def vbatsReading (m : Measurement) : Int := clampInt ((m.vbats + 5).fdiv 10) 8191

/-- One round of measurements (R447 to R455). -/
def Pins.measure (p : Pins) (m : Measurement) : Pins :=
  let q := { p with wake := p.wake.measured (wakeClass m) wakeFaulty, wakeRatio := Sys2Proof.Machine.wakeRatio m,
                    vbats := p.vbats.measured (vbatsClass m) vbatsFaulty, volts := vbatsReading m,
                    frzP := p.frzP.measured (frzClass m .p m.frzP (p.crossP == 2)) frzFaulty,
                    frzN := p.frzN.measured (frzClass m .n m.frzN (p.crossN == 2)) frzFaulty }
  q.frzSet.frzClear

/-- Consecutive crossings of a wire, up to two (R453). -/
def crossings (n : Nat) (crossed : Bool) : Nat := if crossed then min 2 (n + 1) else 0

/-- A wire is Open in the slot of its second crossing, unless a class that comes before Open in R454 applies to it. -/
def PinClass.opened (x : PinClass) (n : Nat) : PinClass :=
  if n = 2 ∧ x.cls ≠ 5 ∧ x.cls ≠ 4 then { cls := 2, cand := 2, fault := true } else x

/-- The test of a wire (R453). -/
def Pins.test (p : Pins) (w : FrzWire) (crossed : Bool) : Pins :=
  match w with
  | .p => Pins.frzSet { p with crossP := crossings p.crossP crossed, frzP := p.frzP.opened (crossings p.crossP crossed) }
  | .n => Pins.frzSet { p with crossN := crossings p.crossN crossed, frzN := p.frzN.opened (crossings p.crossN crossed) }

/-- The filtered pair state takes a new value (R452). -/
def Pins.setPair (p : Pins) (x : PairState) : Pins := Pins.frzSet { p with pair := x }

/-! ### What a change does -/

/-- A class changed, with its PIN record (R470). -/
def Dev.noteClass (d : Dev) (pin : Nat) (o q : PinClass) : Dev :=
  if o.cls = q.cls then d
  else
    let d := d.capturePin pin q.cls
    if q.fault then { d with hn := { d.hn with faults := satInc 14 d.hn.faults } } else d

/-- The pair changed (R452): its PIN record, its count, and the trigger, which the core has 3 slots later (R27). -/
def Dev.notePair (d : Dev) (o q : PairState) : Dev :=
  if o = q then d
  else
    let d := d.capturePin 2 (PairState.code q)
    let d := if q = .bad then { d with hn := { d.hn with frzBad := satInc 14 d.hn.frzBad } } else d
    if o = .idle ∧ q = .trig ∧ d.pw.mode.timetabled = true then { d with hn := { d.hn with trigger := some (d.now + 3) } }
    else d

/-- A fault bit rises into the event controller in the slot after the core has seen the change (R447); before the first tick the
controller latches no edge (R295). -/
def Dev.riseFault (d : Dev) (src : Nat) (o q : Bool) : Dev :=
  if !o && q && d.ev.live then { d with hn := { d.hn with rising := d.hn.rising ++ [(d.now + 1, src)] } } else d

/-- A fault bit has risen into the event controller. -/
def Dev.faultRisen (d : Dev) (t src : Nat) : Dev :=
  { d with hn := { d.hn with rising := d.hn.rising.erase (t, src) } }.fire src

/-- WAKE became Closed (R131, R149, R449). -/
def Dev.wakePinActs (d : Dev) : Dev :=
  match d.pw.mode with
  | .off => d.offEval .wakePin
  | .retain | .wake => d.wakeSource .wakePin .a
  | _ => d

/-- The core sees the harness inputs as `q`. -/
def Dev.setPins (d : Dev) (q : Pins) : Dev :=
  let o := d.hn.pins
  let d := d.notePair o.pair q.pair
  let d := (d.noteClass 3 o.wake q.wake).noteClass 4 o.vbats q.vbats
  let d := (d.noteClass 5 o.frzP q.frzP).noteClass 6 o.frzN q.frzN
  let d := { d with hn := { d.hn with pins := q } }
  let d := d.riseFault 47 o.frzFault q.frzFault
  let d := d.riseFault 48 o.wake.fault q.wake.fault
  let d := d.riseFault 49 o.vbats.fault q.vbats.fault
  if o.wake.cls ≠ 1 ∧ q.wake.cls = 1 then d.wakePinActs else d

/-- The monitor's result reaches the core; in a replay the live inputs are ignored (R479). -/
def Dev.monitor (d : Dev) (f : Pins → Pins) : Dev :=
  match d.pw.mode, d.lb.replay with
  | .replay, some r => { d with lb := { d.lb with replay := some { r with pins := f r.pins } } }
  | _, _ => d.setPins (f d.hn.pins)

end Sys2Proof.Machine
end

