-- ==== Sys2Proof/Machine/Replay.lean ====
section
/-!
DEFINITION. Logbook export and replay (R471, R476 to R482): the source, the entries it gives, how a played record acts, how a replay
begins and ends.
-/
namespace Sys2Proof.Machine
open Sys2Proof

/-! ### Export (R476) -/

/-- The pilot writes the copy that was fixed at acceptance. -/
def Dev.exportRun (d : Dev) (p : Port) (c : Cmd) : Dev :=
  if c.copy.isEmpty then d.finish p 0x0701 else d.deliver p 0x0071 (c.value 2 2) (c.value 4 2) c.copy

/-- A word of the oldest piece has left the capture queue. -/
def drainWord : List Nat → List Nat
  | [] => []
  | n :: ns => if n ≤ 1 then ns else (n - 1) :: ns

/-- A word of the oldest record in the capture queue passes into the ring, in a slot of the logbook in bank 3 (R465, R471). -/
def Dev.captureDrain (d : Dev) : Dev :=
  if d.mayUse 10 3 && !d.lb.queue.isEmpty then
    let d := d.useBank 3
    { d with lb := { d.lb with queue := drainWord d.lb.queue } }
  else d

/-! ### Parsing a source (R468, R469) -/

/-- The words of a run of items up to the one with the last flag. -/
def itemsLen : Nat → List Word → Option Nat
  | n + 1, _ :: y :: r =>
    let long := if field y.toNat 2 11 = 2047 then 1 else 0
    if r.length < long then none
    else if bit y.toNat 13 then some (2 + long) else (itemsLen n (r.drop long)).map fun k => k + 2 + long
  | _, _ => none

/-- The words of the record at the head of a list; `none` for a reserved kind or a run that ends within it. -/
def recLen (ws : List Word) : Option Nat :=
  let t := (ws.getD 0 0#14).toNat
  match t % 16 with
  | 1 => some 6
  | 2 | 3 => if bit t 7 then some 5 else (itemsLen ws.length (ws.drop 5)).map fun k => k + 5
  | 5 => some 3
  | 6 => some (4 + 4 * ceilDiv (ws.getD 3 0#14).toNat 7)
  | 7 | 9 | 10 => some 5
  | 8 => some 9
  | 11 => some 4
  | 15 => some 11
  | _ => none

/-- The slot of a record; the kinds without one stand at the tick's start. -/
def recSlot (ws : List Word) : Nat :=
  let k := (ws.getD 0 0#14).toNat % 16
  if k = 1 ∨ k = 9 then 0 else ofWords ((ws.drop 1).take 2) % 2 ^ 20

/-- The records of an entry up to its END record, which stands apart, and the words of them all. -/
def parseRecs : Nat → List Word → Option (List LogRec × List Word × Nat)
  | 0, _ => none
  | n + 1, ws =>
    match recLen ws with
    | none => none
    | some l =>
      let k := (ws.getD 0 0#14).toNat % 16
      if ws.length < l then none
      else if k = 15 then some ([], ws.take l, l)
      else (parseRecs n (ws.drop l)).map fun x =>
        ({ kind := k, slot := recSlot ws, words := ws.take l } :: x.1, x.2.1, x.2.2 + l)

/-- The timetable a code names (TT_ACTIVE). -/
def ttOfCode : Nat → TtName
  | 0 => .run
  | 1 => .hold
  | 2 => .store
  | _ => .none

/-- A played tick: its TICK header, its records, its END record, and the words of the entry. -/
structure PlayTick where
  header : List Word
  recs : List LogRec
  endRec : List Word
  used : Nat
  deriving DecidableEq, Repr

/-- The tag of the header. -/
def PlayTick.tag (t : PlayTick) : Nat := (t.header.getD 0 0#14).toNat

/-- The tick length of the header. -/
def PlayTick.len (t : PlayTick) : Nat := ofWords ((t.header.drop 4).take 2) % 2 ^ 20

/-- The tick of the header. -/
def PlayTick.tick (t : PlayTick) : Nat := ofWords ((t.header.drop 1).take 3)

/-- The timetable of the header. -/
def PlayTick.tt (t : PlayTick) : TtName := ttOfCode (field t.tag 11 2)

/-- The base code of the header (R466). -/
def PlayTick.base (t : PlayTick) : Nat := field t.tag 8 2

/-- The END record says that the entry has a gap. -/
def PlayTick.gap (t : PlayTick) : Bool := bit (t.endRec.getD 0 0#14).toNat 4

/-- The words the logbook could fetch in the tick that has ended: one in each of its slots (DEDUCED, log entry 42). -/
def Dev.fetchBudget (d : Dev) : Nat :=
  ((List.range 4).map (codeSlots 10 (d.ttOf d.ck.active) d.ck.prevLen)).sum

/-- The next entry of the source, or the reason why none is played (R482); the first entry of a replay is fetched before it begins,
and may carry base code 01. -/
def Dev.nextEntry (d : Dev) (r : Replay) (first : Bool) : Sum Nat PlayTick :=
  if r.left = 0 then .inl 0
  else
    let ws := (List.range (min r.left 33000)).map fun i => (d.checkAt (r.addr + i)).data
    match parseRecs ws.length ws with
    | some (h :: rs, e, u) =>
      let t : PlayTick := { header := h.words, recs := rs, endRec := e, used := u }
      if h.kind ≠ 1 ∨ (rs.any fun x => x.kind == 1) ∨ t.len = 0 ∨ t.tt = .none then .inl 3
      else if !first && decide (d.fetchBudget < u) then .inl 4
      else if t.gap then .inl 1
      else if !first && decide (t.base = 1) then .inl 6
      else .inr t
    | _ => .inl 3

/-! ### A played tick (R479, R481) -/

/-- Records that act at their slot; the others serve as the tick goes on. -/
def LogRec.acts (r : LogRec) : Bool := r.kind != 9 && r.kind != 10 && r.kind != 11

/-- Change the replay. -/
def Dev.modReplay (d : Dev) (f : Replay → Replay) : Dev := { d with lb := { d.lb with replay := d.lb.replay.map f } }

/-- The words that the logbook reads of an entry: up to its END record, or to the tag that is no record's. -/
def entryLen : Nat → List Word → Nat
  | 0, _ => 0
  | n + 1, ws =>
    match recLen ws with
    | none => 1
    | some l => if (ws.getD 0 0#14).toNat % 16 = 15 then l else l + entryLen n (ws.drop l)

/-- The logbook fetches the next entry, through the checker (R40, R193, R477); after the first, no more of it than its slots of the tick
allow (R482). -/
def Dev.fetchReads (d : Dev) (first : Bool) : Dev :=
  match d.lb.replay with
  | some r =>
    let ws := (List.range (min r.left 33000)).map fun i => (d.checkAt (r.addr + i)).data
    let n := min r.left (entryLen ws.length ws)
    (d.readRun 10 r.addr (if first then n else min n d.fetchBudget)).1
  | none => d

/-- A fetched tick is loaded: it runs with the length and the timetable of its header (R479). -/
def Dev.loadTick (d : Dev) (t : PlayTick) : Dev :=
  let now := d.now
  let d := d.modReplay fun r =>
    { r with addr := r.addr + t.used, left := r.left - t.used, entry := t.recs.filter LogRec.acts, endRec := t.endRec,
             rand := (t.recs.filter fun x => x.kind == 9).map fun x => ofWords (x.words.drop 1),
             checks := t.recs.filter fun x => x.kind == 10,
             keels := (t.recs.filter fun x => x.kind == 11).map fun x => (x.words.getD 3 0#14).toNat,
             divTick := false, expect := r.expect.filter fun e => decide (now ≤ e.at') }
  { d with ck := { d.ck with curLen := t.len } }.retable t.tt

/-- The first sub-digest that differs from those of an END record. -/
def firstDiffers (subs : List Nat) (e : List Word) : Option Nat :=
  (List.range 8).find? fun i => decide (subs.getD i 0 ≠ (e.getD (3 + i) 0#14).toNat)

/-- At a boundary the digests of the played tick are compared (R481): `tick` and `len` are the count and the length of the ended
tick. -/
def Dev.compareDigest (d : Dev) (x : Nat × List Nat) (tick len : Nat) : Dev :=
  match d.lb.replay with
  | none => d
  | some r =>
    if r.divTick || r.endRec.isEmpty || decide (x.1 = ofWords ((r.endRec.drop 1).take 2)) then d
    else match firstDiffers x.2 r.endRec with
      | some i => d.diverge tick (i * len / 8) 2 .a
      | none => d

/-! ### Begin and end (R477, R478, R482) -/

/-- REPLAY_START checks its source (R477). The logbook then fetches the first entry. -/
def Dev.replayStart (d : Dev) (p : Port) (c : Cmd) : Dev :=
  let a := c.value 1 2
  let n := c.value 3 2
  if 0x1E0000 < a + n ∨ n < 17 then d.finish p 0x0702
  else
    let (d, rs) := d.readRun 9 a 17
    let w := fun i => ((rs.map Decoded.data).getD i 0#14)
    if w 0 ≠ 0x1B0C#14 ∨ field (w 1).toNat 0 4 ≠ 1 ∨ [w 10, w 11, w 12] ≠ toWords d.cf.crc 3 ∨ (w 16).toNat % 16 ≠ 1 then
      d.finish p 0x0702
    else
      { d with lb := { d.lb with rState := 1, replay := some { addr := a + 16, left := n - 16 } } }.setStarted p

/-- The first entry has been fetched: the pilot answers in the last slot of the tick, and REPLAY begins at the tick boundary (R477). -/
def Dev.fetchDone (d : Dev) : Dev :=
  if (d.pw.mode == .service) && decide (d.lb.rState = 1) && d.lb.replay.isSome && !d.lb.replayDue && d.pilotRuns
      && decide (d.ck.slot + 1 = d.ck.curLen) then
    let d := { d.fetchReads true with lb := { (d.fetchReads true).lb with replayDue := true } }
    (d.finishIf .a 0x0072 0).finishIf .b 0x0072 0
  else d

/-- The event controller is cleared as R314 clears it; the masks are those of the image. -/
def Dev.clearEvents (d : Dev) : Dev :=
  let ws := d.cf.sections.getD 4 []
  let srcs := List.zipWith (fun (n : Nat) (x : Source) =>
    let m := bit (wAt ws (1 + n / 14)) (n % 14)
    { x with pend := false, active := false, owner := none, maskSh := m, mask := m }) (List.range 64) d.ev.srcs
  { d with ev := { d.ev with srcs := srcs, recs := [], qA := { ovf := d.ev.qA.ovf }, qB := { ovf := d.ev.qB.ovf },
                             qP := { ovf := d.ev.qP.ovf } } }

/-- Every mailbox queue is emptied and every semaphore is free (R478). -/
def Dev.clearComm (d : Dev) : Dev :=
  { d with cm := { d.cm with semL := List.replicate 64 {}, semR := List.replicate 16 {}, claims := [],
                             chans := d.cm.chans.map fun c => { c with queue := [], posted := [], answered := 0, free := 16, reserved := 0 } } }

/-- A port of the field starts without merge entries and without work of the live port (R478). -/
def Dev.freshPort (d : Dev) (p : Port) : Dev :=
  (d.drainWrites p).modPort p fun x =>
    { x with merge := [], mergeFree := 8, rmw := [], rq := [], incoming := [], driven := x.driven.filter Driven.done,
             resetEnabled := false, resetDue := none }

/-- The replay base (R478). -/
def Dev.replayBase (d : Dev) : Dev :=
  let d := ((d.freshPort .a).freshPort .b).clearEvents.clearComm.endHistory true
  let banks := d.ar.banks.map fun b => { b with repair := [] }
  let d := { d with ar := { d.ar with banks := banks }, pk := { d.pk with due := true },
                    lb := { d.lb with spent := true, rState := 2, rReason := 0, diverged := false, replayDue := false } }
  d.modReplay fun r => { r with on := d.on, pins := d.hn.pins, liveUp := d.rg.up, liveDn := d.rg.dn }

/-- REPLAY begins in slot 0 of a tick (R477, R478). The units of its own entry are no output of the played tick. -/
def Dev.replayBegin (d : Dev) : Dev :=
  if d.lb.replayDue && (d.pw.mode == .service) then
    let d := (d.changeMode .replay).replayBase.updPins
    let d := { d with lb := { d.lb with units := [] } }
    match d.lb.replay.map fun r => d.nextEntry r true with
    | some (.inr t) => { d with ck := { d.ck with tick := t.tick } }.loadTick t
    | some (.inl n) => d.modReplay fun r => { r with stopReason := some n }
    | none => d
  else d

/-- A replay ends at a boundary (R482): the mode returns to SERVICE, under the RUN timetable. -/
def Dev.replayEnd (d : Dev) (r : Replay) (reason : Nat) : Dev :=
  let d := { d with lb := { d.lb with replay := none, rState := 3, rReason := reason, baseCode := 3 },
                    rg := { d.rg with up := r.liveUp, dn := r.liveDn } }.fire 53
  let d := (d.changeMode .service).retable .run
  let d := if d.pk.frz.isSome then (d.closeRecord true) else d
  let d := if d.pk.frz.isSome then { d with pk := { d.pk with frz := none, hist := none, due := true } } else d
  (d.setPins r.pins).updSleep

/-- At a boundary in REPLAY the replay ends or plays its next tick (R482). -/
def Dev.replayTurn (d : Dev) : Dev :=
  match d.pw.mode, d.lb.replay with
  | .replay, some r =>
    match r.stopReason with
    | some n => d.replayEnd r n
    | none =>
      let d := d.fetchReads false
      match d.nextEntry r false with
      | .inl n => d.replayEnd r n
      | .inr t => d.loadTick t
  | _, _ => d

/-! ### Played records (R479) -/

/-- The fault bit of PIN_FRZ as a replay knows it: a source holds the changes, not the measurements (R455, DEDUCED, log entry 44). -/
def Pins.played (p : Pins) : Pins := { p with frzFault := p.frzBadNow, frzOk := 0 }

/-- A port reset of the field acts on the played port; the live port goes on taking transactions (R479, R480). -/
def Dev.playReset (d : Dev) (p : Port) : Dev :=
  let x := d.port p
  (d.portReset p).modPort p fun y => { y with ready := x.ready, resetAt := x.resetAt, resetDue := x.resetDue }

/-- A played pin. A played PFAIL# assertion ends the replay; it never starts STORE (R129, R482). -/
def Dev.playPin (d : Dev) (pin v : Nat) : Dev :=
  let q := d.hn.pins
  match pin with
  | 0 => (d.modReplay fun r => { r with on := decide (v ≠ 0) })
  | 1 => if v = 0 then d else d.modReplay fun r => { r with stopReason := some (r.stopReason.getD 2) }
  | 2 => d.setPins { q with pair := if v = 0 then .idle else if v = 1 then .trig else .bad }.played
  | 3 => d.setPins { q with wake := { cls := v, cand := v, fault := wakeFaulty v } }
  | 4 => d.setPins { q with vbats := { cls := v, cand := v, fault := vbatsFaulty v } }
  | 5 => d.setPins { q with frzP := { cls := v, cand := v, fault := frzFaulty v } }.played
  | 6 => d.setPins { q with frzN := { cls := v, cand := v, fault := frzFaulty v } }.played
  | 7 => if v = 0 then d else d.playReset .a
  | 8 => if v = 0 then d else d.playReset .b
  | 9 => d.pinReference
  | _ => d

/-- The physical link of a record's link bit (R468). -/
def Dev.recLink (d : Dev) (w : Word) : Link := d.logical (if bit w.toNat 4 then .dn else .up)

/-- A played frame: the field accepted it. -/
def Dev.playFrame (d : Dev) (ws : List Word) : Dev :=
  let l := d.recLink (ws.getD 0 0#14)
  let n := (ws.getD 3 0#14).toNat
  match frameOfBytes ((unpackGroups (ceilDiv n 7) (ws.drop 4)).take n) with
  | some (f, seq) => (d.modLink l fun x => { x with rxSeq := seq }).acceptFrame l f seq
  | none => d

/-- A played link state (DEDUCED, log entry 43): ACTIVE completes a training; TRAINING on an ACTIVE link is its loss; the states of step 1
are what the probe found. -/
def Dev.playState (d : Dev) (l : Link) (code : Nat) : Dev :=
  let x := d.link l
  let atStep1 := fun (d : Dev) => d.modLink l fun x => { x with step := 1 }
  match code with
  | 3 => if x.state = .active then d else d.linkActive l
  | 4 => if x.state = .active then d.lossOfSignal l else if x.state = .training then d else d.startTraining l 1
  | 5 => if x.state = .reversed then d else (atStep1 d).linkDetect l .driver
  | 6 => if x.state = .los then d else (atStep1 d).linkDetect l .nothing
  | _ => d

/-- A played link event (R468). -/
def Dev.playLink (d : Dev) (ws : List Word) : Dev :=
  let t := (ws.getD 0 0#14).toNat
  let l := d.recLink (ws.getD 0 0#14)
  let v := ofWords ((ws.drop 3).take 2)
  match field t 5 4 with
  | 0 => d.takeCrd l (v % 256) (v / 256)
  | 1 => d.takeAck l v
  | 2 => d.takeNak l v
  | 3 => d.playState l v
  | _ => d

/-- A played MARK: the record gives acc + kd_link, and the tick (R402, R468). -/
def Dev.playMark (d : Dev) (ws : List Word) : Dev :=
  let l := d.recLink (ws.getD 0 0#14)
  let kd := ofWords ((ws.drop 3).take 2) % 16777216
  d.acceptMark l (ofWords (ws.drop 5)) ((kd + 16777216 - (d.link l).dly % 16777216) % 16777216) 0 0

/-- The items of a transaction's record: data, code, slot delta, last. -/
def parseItems : Nat → List Word → List (Word × Nat × Nat)
  | n + 1, x :: y :: r =>
    let long := field y.toNat 2 11 = 2047
    (x, y.toNat % 4, if long then (r.getD 0 0#14).toNat else field y.toNat 2 11) :: parseItems n (if long then r.drop 1 else r)
  | _, _ => []

/-- The reads of items from a slot on, with what the field drove. -/
def expectOf (p : Port) (t : Nat) : List (Word × Nat × Nat) → List Expect
  | [] => []
  | (w, c, x) :: is => { port := p, at' := t + x, data := w, code := c } :: expectOf p (t + x) is

/-- What the port's record before this one was: its command, and the absolute slot of its last item. -/
def Replay.last (r : Replay) : Port → Nat × Nat
  | .a => r.lastA
  | .b => r.lastB

/-- Note the command and the last item's slot of a port's record. -/
def Replay.setLast (r : Replay) (p : Port) (x : Nat × Nat) : Replay :=
  match p with
  | .a => { r with lastA := x }
  | .b => { r with lastB := x }

/-- A word of a played WRITE, as it crossed the wire in the field. -/
def playedWord (i : Word × Nat × Nat) : WireWord := WireWord.of i.1 (bit i.2.1 0) (bit i.2.1 1) i.2.2

/-- A played transaction (R469, R479): its items at their logged slots, writes under R175 as in the field. -/
def Dev.playTx (d : Dev) (p : Port) (r : LogRec) : Dev :=
  let t := (r.words.getD 0 0#14).toNat
  let addr := ofWords ((r.words.drop 3).take 2) % 2097152
  let before := (d.lb.replay.map fun x => x.last p).getD (0, 0)
  let start := d.now - (d.ck.slot - r.slot)
  let go := field t 4 3 = 7
  let cmd := if go then before.1 else field t 4 3
  let base := if go ∧ before.2 ≠ 0 then before.2 else start
  let items := if bit t 7 then [] else parseItems r.words.length (r.words.drop 5)
  let deltas := items.map fun i => i.2.2
  let d := d.modReplay fun x => { x with expect := x.expect ++ (if cmd = 1 then [] else expectOf p base items) }.setLast p
    (cmd, base + deltas.sum)
  let reads := readItems addr base (!go) false deltas
  let d := if go then d else match cmd with
    | 4 => d.enableReset p
    | 5 =>
      let e := d.openTx p 5 0 true
      if (d.port p).resetEnabled then e.playReset p else e.badCommand p
    | 6 => d.unknownTx p
    | c => d.openTx p c addr (c == 3)
  match cmd with
  | 0 => d.modPort p fun x => { x with rq := x.rq ++ reads }
  | 1 => d.modPort p fun x => { x with incoming := x.incoming ++ writeItems addr base false (items.map playedWord) }
  | 2 => d.statusItems p false (addr % 2 == 0) reads
  | _ => d

/-- A played record acts. -/
def Dev.playRec (d : Dev) (r : LogRec) : Dev :=
  match r.kind with
  | 2 => d.playTx .a r
  | 3 => d.playTx .b r
  | 5 =>
    let t := (r.words.getD 0 0#14).toNat
    d.playPin (field t 4 4) (field t 8 6)
  | 6 => d.playFrame r.words
  | 7 => d.playLink r.words
  | 8 => d.playMark r.words
  | _ => d

/-- The next played record acts once its slot has come (R479). -/
def Dev.playInput (d : Dev) : Dev :=
  match d.pw.mode, (d.lb.replay.map Replay.entry).getD [] with
  | .replay, r :: rs => if r.slot ≤ d.ck.slot then (d.modReplay fun x => { x with entry := rs }).playRec r else d
  | _, _ => d

end Sys2Proof.Machine
end

