-- ==== Sys2Proof/Machine/Sleep.lean ====
section
/-!
DEFINITION. The ring while a node sleeps or passes: beacons, addressed frames, and the way from PASS to LISTEN (R430 to R441).
-/
namespace Sys2Proof.Machine
open Sys2Proof

/-- The wake source of a pattern on a physical link, by the logical link (R435, R442). -/
def Dev.patternOf (d : Dev) (l : Link) : WakeSrc :=
  match d.logical l with
  | .up => .up
  | .dn => .dn

/-- A frame is addressed to a passing node (R435): its CRC passes, it is no broadcast, and its destination is the node's ID. -/
def Dev.addressed (d : Dev) (bs : List Byte) : Bool :=
  match readFrame bs with
  | .frame f _ => d.rg.numbered && !f.bcast && decide (f.dst = d.rg.nodeId)
  | _ => false

/-- In the slot in which a source woke the device the links' receivers are still those of RETAIN: another source of that always-on clock
cycle counts (R149, log entry 79). -/
def Dev.wakingNow (d : Dev) : Bool := (d.pw.mode == .wake) && d.pw.shortWake && (d.pw.wakeAt == d.now) && d.hasRing

/-- The node is passing on a link. -/
def Dev.passes (d : Dev) (l : Link) : Bool :=
  if d.pw.mode = .retain then (d.link l).state == .pass else d.wakingNow && d.rg.wasPass

/-- The node is listening on a link. -/
def Dev.listens (d : Dev) (l : Link) : Bool :=
  if d.pw.mode = .retain then (d.link l).state == .listen else d.wakingNow && !d.rg.wasPass

/-- A frame reaches a passing node (R435): it is passed on unchanged, and one that is addressed to the node wakes it where enabled. -/
def Dev.passFrame (d : Dev) (l : Link) (bs : List Byte) : Dev :=
  if d.passes l && d.addressed bs then d.wakeSource (d.patternOf l) .a else d

/-- Both receivers of a passing node have lost signal (R439). -/
def Dev.passListens (d : Dev) : Dev :=
  let go : LinkSt → LinkSt := fun x => if x.state = .pass then { x with state := .listen } else x
  if d.pw.mode = .retain then (d.modLink .up go).modLink .dn go else d

/-- The node has relayed a beacon within the last 2 · wake_ms (R438). -/
def Dev.relayedLately (d : Dev) : Bool :=
  let late : LinkSt → Bool := fun x => match x.lastRelay with
    | some t => decide (d.now ≤ t + 2 * d.wakeSlots)
    | none => false
  late (d.link .up) || late (d.link .dn)

/-- A beacon is relayed out of a link (R438). -/
def Dev.relayBeacon (d : Dev) (l : Link) : Dev :=
  if d.relayedLately then d
  else (d.driveBeacon l).modLink l fun x => { x with lastRelay := some d.now }

/-- A beacon is detected (R438): a listening node relays it and may wake; a passing one passes it on. -/
def Dev.beaconSeen (d : Dev) (l : Link) : Dev :=
  if d.listens l then (d.relayBeacon l.other).wakeSource (d.patternOf l) .a
  else if d.passes l then d.driveBeacon l.other
  else d

/-- The link as the wire knows it: the live one of a replay (R480). -/
def Dev.wireLink (d : Dev) (l : Link) : LinkSt :=
  match d.lb.replay with
  | some r => if d.pw.mode = .replay then (match l with
      | .up => r.liveUp
      | .dn => r.liveDn) else d.link l
  | none => d.link l

/-- The modes in which a node drives a beacon of its own (R440). -/
def Mode.beacons : Mode → Bool
  | .run | .limp | .service | .replay => true
  | _ => false

/-- A node starts a beacon on a link (R440): its reasons are non-zero, the link has waited at step 2 for 10 ms, and the last one
lies at least 100 ms back. -/
def Dev.beaconMay (d : Dev) (l : Link) : Bool :=
  let x := d.wireLink l
  d.pw.mode.beacons && (d.rg.why != 0) && x.state == .training && decide (x.step = 2)
    && decide (x.stepAt + 10000000 ≤ d.now) && match x.lastBeacon with
      | some t => decide (t + 100000000 ≤ d.now)
      | none => true

/-- The beacon of R440. -/
def Dev.beaconStart (d : Dev) (l : Link) : Dev :=
  if d.beaconMay l then
    let d := d.onWire fun d => (d.driveBeacon l).modLink l fun x => { x with lastBeacon := some d.now }
    { d with rg := { d.rg with beacons := satInc 14 d.rg.beacons } }
  else d

/-- A beacon ends after wake_ms (R438, R440). -/
def Dev.beaconEnds (d : Dev) (l : Link) : Dev :=
  d.onWire fun d => d.modLink l fun x =>
    match x.beacon with
    | some t => if t ≤ d.now then { x with beacon := none } else x
    | none => x

end Sys2Proof.Machine
end

