-- ==== Sys2Proof/Machine/Ticks.lean ====
section
/-!
DEFINITION. What time brings: window entries (R60, R80), the tick boundary (R22), the urgent check point (R65, R521), the start of
RUN or LIMP (R72, R136, R150), the ends of page stores and map commits (R229, R231).
-/
namespace Sys2Proof.Machine
open Sys2Proof

/-! ### Window entries (R60, R80) -/

/-- An entry begins at its first slot. -/
def Dev.entryStarts (d : Dev) (e : Nat) : Dev :=
  match d.entry e with
  | some w =>
    if d.pw.mode.timetabled && w.covers d.ck.curLen d.ck.slot && !d.ck.openEntries.contains e then
      { d with ck := { d.ck with openEntries := e :: d.ck.openEntries } }.keelEntry w.task
    else d
  | none => d

/-- A must-finish entry has ended unfinished (R80). -/
def Dev.overrun (d : Dev) (e : Nat) (w : Window) : Dev :=
  { d with ck := { d.ck with overruns := satInc 14 d.ck.overruns, ovrOwner := w.owner, ovrEntry := e,
                             ovrTt := d.ck.active.code } }.fire 28

/-- Some tally has increments that were accepted in an earlier tick (R371). -/
def Dev.tallyOpen (d : Dev) : Bool :=
  d.ks.tallies.any fun x => x.incs.any fun i => decide (d.acceptTick i.1 < d.ck.tick)

/-- An overrun of the tally entry lengthens the window of a TALLY_INC (R280). -/
def Dev.graceInc (d : Dev) (p : Port) : Dev :=
  match d.started p 0x0001 with
  | some c => d.setCmd p (some { c with grace := c.grace + 1 })
  | none => d

/-- What the end of an entry does to its task's work (R80). -/
def Dev.entryWork (d : Dev) (e : Nat) (w : Window) : Dev :=
  match w.task with
  | .intake => if d.pw.mode.packs && d.intakeOpen then (d.overrun e w).intakeRest else d
  | .coding =>
    let d := if d.pw.mode.packs && d.codingOpen then d.overrun e w else d
    if d.pw.mode.packs then d.wordEight else d
  | .tally => if d.tallyOpen then ((d.overrun e w).graceInc .a).graceInc .b else d
  | _ => d

/-- A running entry ends. -/
def Dev.endEntryNo (d : Dev) (e : Nat) : Dev :=
  let d := { d with ck := { d.ck with openEntries := d.ck.openEntries.filter (· != e) } }
  match d.entry e with
  | some w => d.entryWork e w
  | none => d

/-- An entry ends at its last slot. -/
def Dev.entryEnds (d : Dev) (e : Nat) : Dev :=
  match d.entry e with
  | some w => if d.ck.openEntries.contains e && decide (w.stop d.ck.curLen ≤ d.ck.slot) then d.endEntryNo e else d
  | none => d

/-- At a boundary no entry of the ended tick runs on. -/
def Dev.endAllEntries (d : Dev) : Dev := d.ck.openEntries.reverse.foldl (fun d e => d.endEntryNo e) d

/-! ### Page stores and map commits (R229, R231) -/

/-- A page's programming ends (R227, R231). In a replay a KEEL record alone says that it does not verify (R479). -/
def Dev.programEnds (d : Dev) (verified : Bool) : Dev :=
  match d.kl.prog with
  | some g =>
    if d.programDue then
      let played := (d.lb.replay.map fun r => !r.keels.contains g.phys).getD verified
      d.storeCommit (if d.pw.mode = .replay then played else verified)
    else d
  | none => d

/-- A map commit ends (R229); the final one ends STORE (R130) or the stores of the RETAIN entry (R145). -/
def Dev.commitEnds (d : Dev) : Dev :=
  match d.kl.commit with
  | some c =>
    if c.dueAt d.now then
      let d := d.commitDue c
      if !c.final then d else if d.pw.mode = .store then d.storeEnd else d.endStores
    else d
  | none => d

/-! ### The books (R462, R463) -/

/-- Held, free and total of the books of a link's four classes. -/
def linkBooks (x : LinkSt) : List (Nat × Nat × Nat) :=
  (List.range 4).map fun c =>
    (x.held.getD c 0, x.credits.getD c 0, if x.everActive then [8, 8, 4, 4].getD c 0 else 0)

/-- A record is being sealed. -/
def Dev.sealing (d : Dev) : Bool :=
  match d.ks.active with
  | some (.record _) => true
  | _ => false

/-- The 21 books, each with held, free and total (R462). -/
def Dev.books (d : Dev) : List (Nat × Nat × Nat) :=
  linkBooks (d.link (d.logical .dn)) ++ linkBooks (d.link (d.logical .up))
    ++ (d.cm.chans.map fun c => (c.words, c.free, 16))
    ++ [(d.pa.merge.length, d.pa.mergeFree, 8), (d.pb.merge.length, d.pb.mergeFree, 8),
        (d.ev.qA.cnt, d.ev.qA.free, 1024), (d.ev.qB.cnt, d.ev.qB.free, 1024), (d.ev.qP.cnt, d.ev.qP.free, 1024),
        (d.kl.pages.length, d.kl.free, d.kl.budget + d.kl.overdraft),
        (d.ks.queue.length + b2n d.sealing, d.ks.sealFree, 5)]

/-- A book balances (R462). -/
def balanced (b : Nat × Nat × Nat) : Bool := decide (b.1 + b.2.1 = b.2.2)

/-- The bits of a list, the first lowest. -/
def maskOf : List Bool → Nat
  | [] => 0
  | b :: bs => b2n b + 2 * maskOf bs

/-- Step 5 of R22: the books are checked and published (R462, R463). -/
def Dev.auditBooks (d : Dev) : Dev :=
  let bs := d.books
  let words := bs.flatMap fun b => [wd b.1, wd b.2.1]
  let tick := d.ck.tick % 16384
  let bad := bs.any fun b => !balanced b
  let sum := (words.foldl (fun x w => x ^^^ w) (wd tick)).toNat
  let d := { d with hn := { d.hn with audit := words, auditTick := tick, auditSum := sum,
                                      auditFail := maskOf (bs.map fun b => !balanced b) } }
  if bad then { d with hn := { d.hn with auditFails := satInc 14 d.hn.auditFails } }.fire 50 else d

/-! ### The actions of a boundary (R22, R79) -/

/-- Step 2 of R22: every shadowed field takes its shadow's value (R79). -/
def Dev.takeShadows (d : Dev) : Dev :=
  let d := d.maskShadows.acktoShadows
  { d with
    pw := { d.pw with wakeEn := d.pw.wakeEnSh, wakeTmr := d.pw.wakeTmrSh },
    ar := { d.ar with rate := d.ar.rateSh },
    rg := { d.rg with needA := d.rg.needASh, needB := d.rg.needBSh },
    hn := { d.hn with filt := d.hn.filtSh },
    lb := { d.lb with scope := d.lb.scopeSh, enable := d.lb.enableSh, keep := d.lb.keepSh,
                      baseCode := if d.lb.enable && !d.lb.enableSh then 3 else d.lb.baseCode } }

/-- A record is being replicated (R414). -/
def Dev.ropingNow (d : Dev) : Bool :=
  d.ks.recs.any fun r => r.members.any fun m => match m with
    | .send => true
    | .await _ => true
    | _ => false

/-- The need reasons (R423). -/
def Dev.needReasons (d : Dev) : Nat :=
  if !d.pw.mode.timetabled then 0
  else
    let m := d.pw.mode
    b2n d.onSeen + 2 * b2n d.rg.needA + 4 * b2n d.rg.needB
      + 8 * b2n (m == .hold || m == .store || m == .service || m == .replay)
      + 16 * b2n d.hostWaits + 32 * b2n d.ropingNow
      + 64 * b2n (!d.rg.peers.isEmpty || !d.ks.recover.isEmpty || d.ks.repair.isSome)
      + 128 * b2n (d.isAnchor && d.rg.enumPhase != .idle)

/-- The reasons are evaluated at the boundary (R423); a change calls for a KEEP until one is sent (R427). -/
def Dev.evalReasons (d : Dev) : Dev :=
  let w := d.needReasons
  let changed := (w != d.rg.why) || (d.rg.whyChanged && d.rg.numbered)
  { d with rg := { d.rg with why := w, whyChanged := changed, markTaken := false } }

/-- The packer at a boundary: the closed record of the return tick, the history that begins, the descriptors, and the flags of the
tick (R22, R29, R322, R343, R355). -/
def Dev.packerBoundary (d : Dev) : Dev :=
  let fresh : PkrChan → PkrChan := fun x => { x with read := false, coded := false, stalled := false }
  let d := { d with pk := { d.pk with chans := d.pk.chans.map fresh } }
  let hold := (d.pw.mode == .hold) || (d.pw.mode == .replay && d.ck.active == .hold)
  let d := if hold && d.captureOver then (d.closeRecord false).beginHistory
    else if d.pk.due && !hold && (d.pw.mode == .run || d.pw.mode == .replay) then d.beginHistory
    else d
  if d.pw.mode = .run ∨ d.pw.mode = .replay ∨ hold = true then d.blockStart else d

/-- What remains of a boundary's actions once the mode and the timetable of the new tick stand: step 3 of R22, with the history that
begins, then step 5; what the other blocks do in slot 0 (a seal is taken, frames leave) sees all five steps (DEDUCED, log entry
11). -/
def Dev.boundaryActions (d : Dev) : Dev :=
  let ret := d.ar.bankRetPending.foldl (fun l x => setInsert x l) d.ar.bankRet
  let d := { d with ar := { d.ar with bankRet := ret, bankRetPending := [] }, hn := { d.hn with stalled := [] } }
  d.packerBoundary.auditBooks.scrubBoundary.evalReasons.flushReleases.resolveClaims.sendMarks.admitHeld.sealTake

/-! ### The start of RUN or LIMP (R72, R136, R150, R295) -/

/-- The sources that the first tick latches (R295): what was placed there, the fallback, and the fault bits that are set. The first tick
after a short-path wake, which ran no LOAD, counts as one (DESIGN CHOICE, log entry 96). -/
def Dev.firstEdges (d : Dev) : Dev :=
  let d := { d with ev := { d.ev with live := true, first := [] } }
  let d := if d.cf.fallback then d.fire 29 else d
  let d := if d.hn.pins.frzFault then d.fire 47 else d
  let d := if d.hn.pins.wake.fault then d.fire 48 else d
  if d.hn.pins.vbats.fault then d.fire 49 else d

/-- RUN or LIMP begins in slot 0 of a tick whose count and length stand. `edges` holds the sources placed at the first tick. -/
def Dev.runStarts (d : Dev) (m : Mode) : Dev :=
  let edges := d.ev.first
  let d := (d.beginEntry m .run).setMode m
  let d := d.switchTo .run
  let d := edges.foldl (fun d n => d.fire n) d.firstEdges
  let boot := if m = .run then min ((d.now - d.pw.wakeAt) / 10000) 0x3FFF else d.pw.bootT
  let phase := if d.isAnchor ∧ m = .run then EnumPhase.wanted else d.rg.enumPhase
  let d := { d with pw := { d.pw with testDone := false, bootT := boot, offLatched := false, onLatched := false },
                    rg := { d.rg with tLast := if m = Mode.run then d.ck.tick else d.rg.tLast, agreed := decide (d.cf.ringNodes = 0), runBeganAt := d.now,
                                      enumPhase := phase },
                    pk := { d.pk with due := true }, pl := { d.pl with limpDue := none } }
  d.updPins

/-- The mode that follows TEST (R136, R156): LIMP under the harbour image, whose entry sets cause 1 whatever stood before (R117), or for a
fatal condition. -/
def Dev.afterTest (d : Dev) : Dev :=
  if d.pw.offLatched then d.enterOff
  else
    let fatal := d.pw.limpCause = 2 ∨ d.pw.limpCause = 3 ∨ d.pw.limpCause = 4
    if d.cf.copySel = 2 then { d with pw := { d.pw with limpCause := 1 } }.runStarts .limp
    else if fatal then d.runStarts .limp
    else d.runStarts .run

/-! ### The tick boundary (R22) -/

/-- The count and the length of the tick that begins (R22 step 1, R73 to R75, R78, R403). -/
def Dev.nextTick (d : Dev) : Dev :=
  let missed := d.ck.source ≠ 0 ∧ d.ck.matched = false ∧ d.ck.matchedNext = false
  let len := if d.ck.source = 0 ∨ missed then d.ck.lenReg else d.ck.nextLen.getD d.ck.lenReg
  let tick := (d.ck.setTick.getD (d.ck.tick + 1)) % 2 ^ 56
  { d with ck := { d.ck with tick := tick, setTick := none, prevLen := d.ck.curLen, curLen := len, nextLen := none,
                             slot := 0, deadline := len - d.ck.intakeLead, matched := d.ck.matchedNext,
                             matchedNext := false } }

/-- The ended tick is closed, and the count, the length and the shadows of the new one stand; in a replay the digests of the ended
tick are compared. -/
def Dev.turnTick (d : Dev) : Dev :=
  let d := (d.pass (d.ck.curLen - d.ck.slot)).countWork.endAllEntries
  let c := d.closeTick
  let e := c.1.judgeTick.nextTick.takeShadows
  if e.pw.mode = .replay then e.compareDigest c.2 d.ck.tick d.ck.curLen else e

/-- The deadline of the intake in the tick that begins (R78). -/
def Dev.setDeadline (d : Dev) : Dev := { d with ck := { d.ck with deadline := d.ck.curLen - d.ck.intakeLead } }

/-- The entry of the new tick begins, and RUN or LIMP where TEST has ended. -/
def Dev.openTick (d : Dev) : Dev :=
  if d.pw.mode = .test ∧ d.pw.testDone = true then d.afterTest else d.beginEntry d.pw.mode d.ck.active

/-- TICK_BOUNDARY: the running tick's count has expired, and the actions of R22 follow. -/
def Dev.tickBoundary (d : Dev) : Dev :=
  if !d.ck.running then d
  else
    let d := d.turnTick.takeFreeze.replayTurn.replayBegin.setDeadline.openTick
    if d.ck.running then d.boundaryActions else d

/-! ### The urgent check point (R64 to R68, R521) -/

/-- The freeze of R65 step 2: HOLD begins, or a replay's HOLD timetable, and the freeze is taken; its action takes 5 slots (R27,
R28). -/
def Dev.freezeNow (d : Dev) (trig : Bool) : Dev :=
  let ps := d.pl.freezeReq
  let code := b2n trig + 2 * b2n (!ps.isEmpty)
  let d := { d with hn := { d.hn with trigger := none }, pl := { d.pl with freezeReq := [], freezing := ps } }
  let d := (d.switchTt .hold).fixBoundary code
  if d.pw.mode = .run then d.changeMode .hold else d

/-- The boundary is fixed, 5 slots after the check point (R27, R82): RECORD_FREEZE is answered with the freeze tick (R282). -/
def Dev.boundaryFixed (d : Dev) : Dev :=
  let ps := d.pl.freezing
  let d := { d with pk := { d.pk with fixAt := none }, pl := { d.pl with freezing := [] } }
  match d.pk.frz with
  | some t => ps.foldl (fun d p => match d.started p 0x0010 with
    | some _ => d.finishWith p (0x0010#14 :: toWords t 4) 0
    | none => d) d
  | none => d

/-- Steps 2 and 3 of R65. -/
def Dev.freezeSteps (d : Dev) : Dev :=
  let due := match d.hn.trigger with
    | some t => decide (t ≤ d.now)
    | none => false
  let running := (d.pw.mode == .run) || (d.pw.mode == .replay && d.ck.active == .run)
  let holding := (d.pw.mode == .hold) || (d.pw.mode == .replay && d.ck.active == .hold)
  if running then (if due || !d.pl.freezeReq.isEmpty then d.freezeNow due else d)
  else if holding then
    let d := if due then { d with hn := { d.hn with trigger := none } }.countExtra 1 else d
    if d.pk.frz.isNone then
      let d := d.switchTt .run
      if d.pw.mode = .hold then d.changeMode .run else d
    else d
  else { d with hn := { d.hn with trigger := if due then none else d.hn.trigger } }

/-- The ring's agreement to sleep (R429). -/
def Dev.sleepVote (d : Dev) : Dev :=
  if d.cf.ringNodes = 0 then d
  else if d.rg.tLast + d.msTicks d.rg.sleepMs ≤ d.ck.tick then
    if d.rg.agreed then d else { d with rg := { d.rg with agreed := true } }.fire 46
  else d

/-- A request of an earlier slot is due. -/
def Dev.dueReq (d : Dev) (x : Port × Nat) : Bool := decide (x.2 < d.now)

/-- Entry to LIMP after a pilot fault (R291): a capture is cut short, a replay or an update is left. -/
def Dev.limpStep (d : Dev) : Dev :=
  match d.pl.limpDue with
  | some t =>
    if t < d.now then
      let d := { d with pl := { d.pl with limpDue := none }, hn := { d.hn with trigger := none } }
      if (d.pw.mode == .run || d.pw.mode == .hold || d.pw.mode == .service || d.pw.mode == .replay) then
        let d := if d.pk.frz.isSome then d.closeRecord true else d
        let d := if d.pk.frz.isSome then { d.endHistory false with pk := { (d.endHistory false).pk with due := true } } else d
        let d := (d.dropPlayed.switchTt .run)
        d.changeMode .limp
      else d
    else d
  | none => d

/-- SERVICE returns to the mode it was entered from (R132). -/
def Dev.leaveService (d : Dev) : Dev :=
  if d.pw.mode = .service then d.changeMode d.pw.serviceFrom else d

/-- LEAVE_SERVICE acts (R132, R287). -/
def Dev.leaveStep (d : Dev) : Dev :=
  let due := d.pl.leaveReq.filter d.dueReq
  if due.isEmpty then d
  else
    let d := { d with pl := { d.pl with leaveReq := d.pl.leaveReq.filter fun x => !d.dueReq x } }
    let d := due.foldl (fun d x => d.finishIf x.1 0x0061 0) d
    d.leaveService

/-- ENTER_SERVICE acts (R132, R287, R521). -/
def Dev.serviceStep (d : Dev) : Dev :=
  let due := d.pl.svcReq.filter d.dueReq
  let d := due.foldl (fun d x =>
    if d.pw.mode = .run ∨ d.pw.mode = .limp then
      ({ d with pw := { d.pw with serviceFrom := d.pw.mode } }.changeMode .service).finishIf x.1 0x0060 0
    else d.finishIf x.1 0x0060 0x3FF3) d
  { d with pl := { d.pl with svcReq := d.pl.svcReq.filter fun x => !d.dueReq x } }

/-- RETAIN entry from RUN (R144), and the way of LIMP with ON low through STORE to OFF (R128). -/
def Dev.sleepStep (d : Dev) : Dev :=
  if d.pw.mode = .run ∧ (d.pl.sleepReq ≠ [] ∨ (d.on = false ∧ d.rg.agreed = true)) then d.enterRetain
  else if d.pw.mode = .limp ∧ d.on = false then d.enterStore
  else d

/-- URGENT_CHECK_POINT (R64, R65, R521). -/
def Dev.checkPoint (d : Dev) : Dev :=
  if d.pw.mode.timetabled && decide (d.ck.slot % 64 = 0) && decide (d.ck.lastCheck ≠ some d.now) then
    let d := { d with ck := { d.ck with lastCheck := some d.now } }
    if d.pfail && (d.ck.active == .run || d.ck.active == .hold) then d.enterStore
    else d.freezeSteps.sleepVote.limpStep.leaveStep.serviceStep.sleepStep
  else d

/-! ### The end of WAKE (R135, R143, R150) -/

/-- The short path reaches RUN (R150, R436, R441): the links train, and the first tick begins. -/
def Dev.shortRun (d : Dev) : Dev :=
  let pass : LinkSt → LinkSt := fun x => if d.rg.wasPass then { x with sent := .passoff } else x
  let d := { d with rg := { d.rg with wasPass := false, up := pass d.rg.up, dn := pass d.rg.dn } }.startTicks ((d.ck.tick + 1) % 2 ^ 56)
  let d := { d with kl := { d.kl with lastCkpt := none } }
  let d := (d.takeShadows.runStarts .run).trainAll
  let told := [0, 1, 3, 5].foldl (fun d k =>
    if (d.chan k).notify = 2 ∧ (d.chan k).queue ≠ [] then d.tellReceiver k else d) d
  { told with pw := { told.pw with shortWake := false, attempting := false } }.boundaryActions

/-- The conditions of WAKE hold (R135): the start goes on to LOAD, or on the short path to RUN where the retained configuration is
whole. -/
def Dev.wakeDone (d : Dev) (f : FlashId) (ha hb : List Byte) : Dev :=
  if d.pw.mode = .wake ∧ d.pw.attempting = true then
    d.clearCause5.phase fun d =>
      if d.pw.shortWake ∧ d.cfgCrcNow = d.pw.retCrc then d.shortRun else d.enterLoad f ha hb
  else d

end Sys2Proof.Machine
end

