-- ==== Sys2Proof/Machine/Time.lean ====
section
/-!
DEFINITION. What time alone brings, and how a command acts: first the slots before it pass, with what falls due in them, then its
own effect. Six things fall due without a command of their own (DESIGN CHOICE, log entry 3): the words of a WRITE cross the wire
(R164, R173), the words of a burst are driven (R178), an accepted RESET PORT acts as CS# rises (R183), the boundary of a freeze
is fixed 5 slots after its check point (R27), the pool rule is checked in the slot after one that took a page (R232), and a fault bit
of the harness rises into the event controller in the slot after its change (R447).
-/
namespace Sys2Proof.Machine
open Sys2Proof

/-- What falls due without a command of its own. -/
inductive Due where
  | arrive (p : Port) (i : Incoming)
  | drive (p : Port) (v : Driven)
  | reset (p : Port)
  | fixed
  | pool
  | fault (t src : Nat)
  deriving DecidableEq, Repr

/-- What is to fall due on a port, each with its absolute slot. -/
def PortSt.dues (x : PortSt) (p : Port) : List (Nat × Due) :=
  x.incoming.map (fun i => (i.at', Due.arrive p i)) ++
  (x.driven.filter fun v => !v.done).map (fun v => (v.driveAt, Due.drive p v)) ++
  (x.resetDue.map fun t => (t, Due.reset p)).toList

/-- What is to fall due, port A before port B (R468). -/
def Dev.dues (d : Dev) : List (Nat × Due) :=
  d.pa.dues .a ++ d.pb.dues .b ++ (d.pk.fixAt.map fun t => (t, Due.fixed)).toList ++
    (d.kl.poolAt.map fun t => (t, Due.pool)).toList ++ d.hn.rising.map fun x => (x.1, Due.fault x.1 x.2)

/-- It falls due. -/
def Dev.fallDue (d : Dev) : Due → Dev
  | .arrive p i => d.arrive p i
  | .drive p v => d.driveOut p v
  | .reset p => d.portReset p
  | .fixed => d.boundaryFixed
  | .pool => d.poolDue
  | .fault t n => d.faultRisen t n

/-- The earlier of two; the first where they share a slot. -/
def sooner (x : Option (Nat × Due)) (y : Nat × Due) : Option (Nat × Due) :=
  match x with
  | some z => if z.1 ≤ y.1 then some z else some y
  | none => some y

/-- What falls due before an absolute slot happens, each in its own slot; `n` bounds how many. -/
def Dev.dueBefore (d : Dev) (limit : Nat) : Nat → Dev
  | 0 => d
  | n + 1 =>
    match d.dues.foldl sooner none with
    | some (t, x) => if t < limit then ((d.pass (t - d.now)).fallDue x).dueBefore limit n else d
    | none => d

/-- Time passes up to an absolute slot; `limit` is the first slot in which nothing falls due yet. Without VDD nothing does. -/
def Dev.passTo (d : Dev) (target limit : Nat) : Dev :=
  let e := if d.pw.powered then d.dueBefore limit d.dues.length else d
  e.pass (target - e.now)

/-- The device `dt` slots later: what falls due in the slot of a command comes before the command. -/
def Dev.advance (d : Dev) (dt : Nat) : Dev := d.passTo (d.now + dt) (d.now + dt + 1)

/-- The device at the end of its tick: what falls due in slot 0 of the next one comes after the boundary (R22). -/
def Dev.toBoundary (d : Dev) : Dev :=
  let target := d.now + (d.ck.curLen - d.ck.slot)
  d.passTo target target

/-- A command whose effect is `f`: time passes, then, with VDD present, the effect (R126, R134). The queue is kept. -/
def State.act (s : State) (dt : Nat) (f : Dev → Dev) : Host.Outcome State Fault Refusal :=
  .next { s with dev := if s.dev.pw.powered then f (s.dev.advance dt) else s.dev.advance dt }

/-- A command that acts whether or not VDD is present. -/
def State.always (s : State) (dt : Nat) (f : Dev → Dev) : Host.Outcome State Fault Refusal :=
  .next { s with dev := f (s.dev.advance dt) }

end Sys2Proof.Machine
end

