-- ==== Sys2Proof/Machine/Commands.lean ====
section
/-!
DEFINITION. The meaning of every command, one definition each: what `State.act` makes of the operation that its chapter's
file defines, at the slot to which the command's `dt` brings the device.
-/
namespace Sys2Proof.Machine
open Sys2Proof

/-! ### The tick reference -/

/-- TICK_PIN_REFERENCE (R74). In a replay the live TICK pin is ignored (R479). -/
def execTickPinReference (dt : Nat) (s : State) : Host.Outcome State Fault Refusal :=
  s.act dt fun d => if d.pw.mode = .replay then d else d.pinReference

/-- HOLDOVER_ENTRY (R75). -/
def execHoldoverEntry (dt : Nat) (s : State) : Host.Outcome State Fault Refusal := s.act dt Dev.holdoverEntry

/-- TICK_OUT_EDGE (R76). -/
def execTickOutEdge (dt : Nat) (s : State) : Host.Outcome State Fault Refusal := s.act dt Dev.tickOutEdge

/-! ### Semaphores and mailboxes -/

/-- SEM_LOCAL_CLAIM (R245). -/
def execSemLocalClaim (dt : Nat) (party : Party) (n : Fin 64) (s : State) : Host.Outcome State Fault Refusal :=
  s.act dt fun d => if d.partyActs party then d.semClaim party n.val else d

/-- SEM_LOCAL_RELEASE (R246). -/
def execSemLocalRelease (dt : Nat) (party : Party) (n : Fin 64) (s : State) : Host.Outcome State Fault Refusal :=
  s.act dt fun d => if d.partyActs party then d.semRelease party n.val else d

/-- MBX_POST (R256). -/
def execMbxPost (dt : Nat) (party : Party) (ch : Fin 6) (v : Word) (s : State) : Host.Outcome State Fault Refusal :=
  s.act dt fun d => if d.partyActs party then d.postWrite party ch.val v else d

/-- MBX_TAKE (R258). -/
def execMbxTake (dt : Nat) (party : Party) (ch : Fin 6) (s : State) : Host.Outcome State Fault Refusal :=
  s.act dt fun d => if d.partyActs party then d.takeWrite party ch.val 1#14 else d

/-- MBX_ACK_WRITE (R264). -/
def execMbxAckWrite (dt : Nat) (party : Party) (ch : Fin 6) (code : Word) (s : State) :
    Host.Outcome State Fault Refusal :=
  s.act dt fun d => if d.partyActs party then d.ackWriteBy party ch.val code else d

/-- MBX_CLR_STALE (R267). -/
def execMbxClrStale (dt : Nat) (party : Party) (ch : Fin 6) (s : State) : Host.Outcome State Fault Refusal :=
  s.act dt fun d => if d.partyActs party then d.clrWrite party ch.val 1#14 else d

/-- MBX_CLR_SNDRST (R268). -/
def execMbxClrSndrst (dt : Nat) (party : Party) (ch : Fin 6) (s : State) : Host.Outcome State Fault Refusal :=
  s.act dt fun d => if d.partyActs party then d.clrWrite party ch.val 2#14 else d

/-- MBX_CLR_ACK (R264). -/
def execMbxClrAck (dt : Nat) (party : Party) (ch : Fin 6) (s : State) : Host.Outcome State Fault Refusal :=
  s.act dt fun d => if d.partyActs party then d.clrWrite party ch.val 4#14 else d

/-- MBX_CFG_WRITE (R260). -/
def execMbxCfgWrite (dt : Nat) (party : Party) (ch : Fin 6) (v : Word) (s : State) :
    Host.Outcome State Fault Refusal :=
  s.act dt fun d => if d.partyActs party then d.cfgWrite party ch.val v else d

/-- MBX_ACK_TIMEOUT (R265): in the engine's slot, in every mode with an image timetable. -/
def execMbxAckTimeout (dt : Nat) (ch : Fin 6) (s : State) : Host.Outcome State Fault Refusal :=
  s.act dt fun d => if d.pw.mode.timetabled then d.ackTimeout ch.val else d

/-! ### Array integrity -/

/-- SCRUB_SLOT (R204). -/
def execScrubSlot (dt : Nat) (bank : Fin 4) (fault : Code) (s : State) : Host.Outcome State Fault Refusal :=
  s.act dt fun d => if d.pw.mode.timetabled then d.scrubTurn bank.val fault else d

/-- ECC_LOG_CLR (R213). -/
def execEccLogClr (dt : Nat) (party : Party) (v : Word) (s : State) : Host.Outcome State Fault Refusal :=
  s.act dt fun d => if d.partyActs party then d.logClear v else d

/-- SCR_RATE_WRITE (R202). -/
def execScrRateWrite (dt : Nat) (party : Party) (v : Word) (s : State) : Host.Outcome State Fault Refusal :=
  s.act dt fun d => if d.partyActs party then d.rateWrite v else d

/-- ECC_TEST_WRITE (R217). -/
def execEccTestWrite (dt : Nat) (party : Party) (v : Word) (s : State) : Host.Outcome State Fault Refusal :=
  s.act dt fun d => if d.partyActs party then d.testWrite v else d

/-- RAW_READ (R217): op 01. -/
def execRawRead (dt : Nat) (party : Party) (s : State) : Host.Outcome State Fault Refusal :=
  s.act dt fun d => if d.partyActs party then d.rawStart .read else d

/-- RAW_WRITE (R217): op 10. -/
def execRawWrite (dt : Nat) (party : Party) (s : State) : Host.Outcome State Fault Refusal :=
  s.act dt fun d => if d.partyActs party then d.rawStart .write else d

/-- RAW_CHECK_WRITE (R217): op 11. -/
def execRawCheckWrite (dt : Nat) (party : Party) (s : State) : Host.Outcome State Fault Refusal :=
  s.act dt fun d => if d.partyActs party then d.rawStart .check else d

/-- RETIRE_PAGE (R214). -/
def execRetirePage (dt : Nat) (port : Port) (s : State) : Host.Outcome State Fault Refusal :=
  s.act dt fun d => d.onCommand port 0x0020 fun c d => d.retirePage port c

/-- RETIRE_BANK (R216). -/
def execRetireBank (dt : Nat) (port : Port) (s : State) : Host.Outcome State Fault Refusal :=
  s.act dt fun d => d.onCommand port 0x0021 fun c d => d.retireBank port c

/-- SCRUB_RANGE (R205). -/
def execScrubRange (dt : Nat) (port : Port) (s : State) : Host.Outcome State Fault Refusal :=
  s.act dt fun d => d.onCommand port 0x0022 fun c d => d.scrubRange port c

/-- PAGE_STORE_READ (R227). -/
def execPageStoreRead (dt : Nat) (s : State) : Host.Outcome State Fault Refusal :=
  s.act dt fun d =>
    if (d.pw.mode.timetabled || d.pw.retainEntry) && d.keelKeeps then d.beginRead.readTurn else d

/-! ### The packer -/

/-- INTAKE_READ (R319). -/
def execIntakeRead (dt : Nat) (ch : Fin 16) (s : State) : Host.Outcome State Fault Refusal :=
  s.act dt fun d => if d.pw.mode.packs then d.intakeRead ch.val else d

/-- PACKER_CODING (R335). -/
def execPackerCoding (dt : Nat) (ch : Fin 16) (s : State) : Host.Outcome State Fault Refusal :=
  s.act dt fun d => if d.pw.mode.packs ∧ ch.val < d.pk.nCh then d.codeStep ch.val else d

/-- PKR_ARM_WRITE (R343). -/
def execPkrArmWrite (dt : Nat) (party : Party) (ch : Fin 16) (s : State) : Host.Outcome State Fault Refusal :=
  s.act dt fun d => if d.partyActs party then d.armWrite party ch.val 1#14 else d

/-! ### Holds and merge buffers -/

/-- PILOT_HOLD_WRITE (R47). -/
def execPilotHoldWrite (dt : Nat) (addr : Addr) (v : Word) (s : State) : Host.Outcome State Fault Refusal :=
  s.act dt fun d => if d.pilotRuns then d.pilotHoldWrite addr.toNat v else d

/-- HLD_APPEND_WRITE (R50). -/
def execHldAppendWrite (dt : Nat) (hold : Fin 16) (value : BitVec 28) (s : State) : Host.Outcome State Fault Refusal :=
  s.act dt fun d => if d.pilotRuns then d.appendWrite hold.val value.toNat else d

/-- MERGE_COMMIT (R195): the port's next word to write is an entry whose second half has arrived. -/
def execMergeCommit (dt : Nat) (port : Port) (s : State) : Host.Outcome State Fault Refusal :=
  s.act dt fun d => d.commitNext port

/-- MERGE_AGE_OUT (R196): a boundary action, which TICK_BOUNDARY makes for both ports; at slot 0 it finds what is left. -/
def execMergeAgeOut (dt : Nat) (port : Port) (s : State) : Host.Outcome State Fault Refusal :=
  s.act dt fun d => if d.pw.mode.timetabled then d.ageOut port else d

/-- MERGE_RMW (R198). -/
def execMergeRmw (dt : Nat) (port : Port) (s : State) : Host.Outcome State Fault Refusal :=
  s.act dt fun d => d.rmwStep port

/-! ### The event controller -/

/-- EVENT_RECORD_WRITE (R301). -/
def execEventRecordWrite (dt : Nat) (s : State) : Host.Outcome State Fault Refusal :=
  s.act dt fun d => if d.pw.mode.timetabled then d.recordTurn else d

/-- EVC_CLAIM (R306): the word is what the party's read returns. -/
def execEvcClaim (dt : Nat) (party : Party) (n : Fin 64) (s : State) : Host.Outcome State Fault Refusal :=
  s.act dt fun d =>
    if d.partyActs party then
      let r := d.claim party n.val
      r.1.modParty party fun y => { y with back := r.2 }
    else d

/-- EVC_COMPLETE (R307). -/
def execEvcComplete (dt : Nat) (party : Party) (v : Word) (s : State) : Host.Outcome State Fault Refusal :=
  s.act dt fun d => if d.partyActs party then d.complete party v else d

/-- EVC_PEND_WRITE (R310). -/
def execEvcPendWrite (dt : Nat) (party : Party) (w : Fin 5) (v : Word) (s : State) :
    Host.Outcome State Fault Refusal :=
  s.act dt fun d => if d.partyActs party then d.pendWrite w.val v else d

/-- EVC_QRD_WRITE (R303). -/
def execEvcQrdWrite (dt : Nat) (party queue : Party) (v : Word) (s : State) : Host.Outcome State Fault Refusal :=
  s.act dt fun d => if d.partyActs party then d.qrdWrite party queue v else d

/-! ### Links -/

/-- SEM_RING_CLAIM (R249). -/
def execSemRingClaim (dt : Nat) (party : Party) (n : Fin 16) (s : State) : Host.Outcome State Fault Refusal :=
  s.act dt fun d => if d.partyActs party then d.ringClaim party n.val else d

/-- SEM_RING_RELEASE (R250). -/
def execSemRingRelease (dt : Nat) (party : Party) (n : Fin 16) (s : State) : Host.Outcome State Fault Refusal :=
  s.act dt fun d => if d.partyActs party then d.ringRelease party n.val else d

/-- RING_CLAIM_TIMEOUT (R249). -/
def execRingClaimTimeout (dt : Nat) (n : Fin 16) (s : State) : Host.Outcome State Fault Refusal :=
  s.act dt fun d => d.ringTimeout n.val

/-- LINK_DETECT (R381). -/
def execLinkDetect (dt : Nat) (link : Link) (result : ProbeResult) (s : State) : Host.Outcome State Fault Refusal :=
  s.act dt fun d => if d.linksTrain then d.onWire fun d => d.linkDetect link result else d

/-- LINK_TRAINING_STEP (R380). -/
def execLinkTrainingStep (dt : Nat) (link : Link) (inverted : Bool) (s : State) : Host.Outcome State Fault Refusal :=
  s.act dt fun d => if d.linksTrain then d.onWire fun d => d.linkStep link inverted else d

/-- LINK_TRAINING_TIMEOUT (R380). -/
def execLinkTrainingTimeout (dt : Nat) (link : Link) (s : State) : Host.Outcome State Fault Refusal :=
  s.act dt fun d => if d.linksTrain then d.onWire fun d => d.stepTimeout link else d

/-- LINK_LOSS_OF_SIGNAL (R384). -/
def execLinkLossOfSignal (dt : Nat) (link : Link) (s : State) : Host.Outcome State Fault Refusal :=
  s.act dt fun d => if d.linksTrain then d.onWire fun d => d.lossOfSignal link else d

/-- RETRAIN_TIMEOUT (R395). -/
def execRetrainTimeout (dt : Nat) (link : Link) (s : State) : Host.Outcome State Fault Refusal :=
  s.act dt fun d => if d.linksTrain then d.onWire fun d => d.retrainTimeout link else d

/-! ### Registers -/

/-- REGISTER_WRITE (R11). -/
def execRegisterWrite (dt : Nat) (party : Party) (addr : Addr) (v : Word) (s : State) :
    Host.Outcome State Fault Refusal :=
  s.act dt fun d => if d.partyActs party ∧ 0x1F0000 ≤ addr.toNat then d.regWrite party addr.toNat v else d

/-- SNAPSHOT_READ (R8): the word is what the party's read returns. -/
def execSnapshotRead (dt : Nat) (party : Party) (addr : Addr) (s : State) : Host.Outcome State Fault Refusal :=
  s.act dt fun d =>
    if d.partyActs party ∧ multiValues.any fun m => m.1 == addr.toNat then
      let r := d.regRead party addr.toNat
      r.1.modParty party fun y => { y with back := r.2 }
    else d

/-! ### The image update -/

/-- CONFIG_UPDATE_BEGIN (R119). -/
def execConfigUpdateBegin (dt : Nat) (port : Port) (s : State) : Host.Outcome State Fault Refusal :=
  s.act dt fun d => d.onCommand port 0x0030 fun _ d => d.updateBegin port

/-- FLASH_ERASE_COMPLETE (R119). -/
def execFlashEraseComplete (dt : Nat) (ok : Bool) (s : State) : Host.Outcome State Fault Refusal :=
  s.act dt fun d => d.eraseDone ok

/-- CONFIG_UPDATE_DATA (R120): `ok` is what the flash reports of the programming. -/
def execConfigUpdateData (dt : Nat) (port : Port) (ok : Bool) (s : State) : Host.Outcome State Fault Refusal :=
  s.act dt fun d => d.onCommand port 0x0031 fun c d => d.updateData port c ok

/-- CONFIG_UPDATE_COMMIT (R119). -/
def execConfigUpdateCommit (dt : Nat) (port : Port) (s : State) : Host.Outcome State Fault Refusal :=
  s.act dt fun d => d.onCommand port 0x0032 fun _ d => d.updateCommit port

/-- UPDATE_COMMIT_COMPLETE (R119): what the flash read back, and whether it reports success for the magic. -/
def execUpdateCommitComplete (dt : Nat) (readback : List Byte) (ok : Bool) (s : State) :
    Host.Outcome State Fault Refusal :=
  s.act dt fun d => d.commitDone readback ok

/-! ### Host ports -/

/-- READ (R165), at CS# fall. -/
def execRead (dt : Nat) (port : Port) (head : List Byte) (deltas : List Nat) (cut : Bool) (s : State) :
    Host.Outcome State Fault Refusal :=
  s.act dt fun d => d.transact port head { deltas := deltas, cut := cut }

/-- WRITE (R165), at CS# fall. -/
def execWrite (dt : Nat) (port : Port) (head : List Byte) (words : List WireWord) (s : State) :
    Host.Outcome State Fault Refusal :=
  s.act dt fun d => d.transact port head { words := words }

/-- READ_STATUS (R154). -/
def execReadStatus (dt : Nat) (port : Port) (head : List Byte) (deltas : List Nat) (cut : Bool) (s : State) :
    Host.Outcome State Fault Refusal :=
  s.act dt fun d => d.transact port head { deltas := deltas, cut := cut }

/-- READ_SFDP (R169). -/
def execReadSfdp (dt : Nat) (port : Port) (head : List Byte) (deltas : List Nat) (s : State) :
    Host.Outcome State Fault Refusal :=
  s.act dt fun d => d.transact port head { deltas := deltas }

/-- RESET_ENABLE (R166). -/
def execResetEnable (dt : Nat) (port : Port) (head : List Byte) (s : State) : Host.Outcome State Fault Refusal :=
  s.act dt fun d => d.transact port head {}

/-- RESET_PORT (R183): it acts `rise` slots later, when CS# rises. -/
def execResetPort (dt : Nat) (port : Port) (head : List Byte) (rise : Nat) (s : State) :
    Host.Outcome State Fault Refusal :=
  s.act dt fun d => d.transact port head { rise := rise }

/-- UNKNOWN_COMMAND (R166): the header says that it is one. -/
def execUnknownCommand (dt : Nat) (port : Port) (head : List Byte) (s : State) : Host.Outcome State Fault Refusal :=
  s.act dt fun d => d.transact port head {}

/-- PORT_WORD_WRITE (R175): the port's full word whose slot this is. -/
def execPortWordWrite (dt : Nat) (port : Port) (s : State) : Host.Outcome State Fault Refusal :=
  s.act dt fun d => d.writeNext port

/-- PORT_WORD_READ (R181): the next word of the port's burst. -/
def execPortWordRead (dt : Nat) (port : Port) (s : State) : Host.Outcome State Fault Refusal :=
  s.act dt fun d => d.readNext port

/-- PORT_RESET (R184). -/
def execPortReset (dt : Nat) (port : Port) (s : State) : Host.Outcome State Fault Refusal :=
  s.act dt fun d => if (d.port port).vddio then d.rstLowTx port else d

/-- PORT_READY (R183). -/
def execPortReady (dt : Nat) (port : Port) (s : State) : Host.Outcome State Fault Refusal :=
  s.act dt fun d => if (d.port port).vddio then d.portReady port else d

/-! ### The seal engine -/

/-- TALLY_UPDATE (R371): in a tally update entry. -/
def execTallyUpdate (dt : Nat) (t : Fin 16) (s : State) : Host.Outcome State Fault Refusal :=
  s.act dt fun d => if d.pilotRuns && d.taskNow .tally then d.tallyUpdate t.val else d

/-- SIGNATURE_DONE (R362). -/
def execSignatureDone (dt : Nat) (s : State) : Host.Outcome State Fault Refusal :=
  s.act dt fun d => if d.sealRuns then d.sealDone else d

/-- AUDIT_VERIFY_DONE (R365): a verification is suspended while other work runs. -/
def execAuditVerifyDone (dt : Nat) (s : State) : Host.Outcome State Fault Refusal :=
  s.act dt fun d => if d.sealRuns && d.verifyDue then d.auditStep else d

/-- REPAIR_REPLICA_TIMEOUT (R366): 64 ticks after the request. -/
def execRepairReplicaTimeout (dt : Nat) (s : State) : Host.Outcome State Fault Refusal :=
  s.act dt fun d =>
    match d.ks.repair with
    | some r => if r.tick + 64 ≤ d.ck.tick then d.repairNext else d
    | none => d

/-! ### Pilot commands -/

/-- COMMAND_GATE (R275). -/
def execCommandGate (dt : Nat) (port : Port) (s : State) : Host.Outcome State Fault Refusal :=
  s.act dt fun d => if d.pw.mode.timetabled then d.gate port else d

/-- COMMAND_ACCEPT (R276). -/
def execCommandAccept (dt : Nat) (port : Port) (s : State) : Host.Outcome State Fault Refusal :=
  s.act dt fun d => if d.pilotRuns then d.accept port else d

/-- TALLY_INC (R282). -/
def execTallyInc (dt : Nat) (port : Port) (s : State) : Host.Outcome State Fault Refusal :=
  s.act dt fun d => d.onCommand port 0x0001 fun c d => d.tallyInc port c

/-- TALLY_READ (R282). -/
def execTallyRead (dt : Nat) (port : Port) (s : State) : Host.Outcome State Fault Refusal :=
  s.act dt fun d => d.onCommand port 0x0002 fun c d => d.tallyRead port c

/-- TALLY_ATTEST (R374). -/
def execTallyAttest (dt : Nat) (port : Port) (s : State) : Host.Outcome State Fault Refusal :=
  s.act dt fun d => d.onCommand port 0x0003 fun c d => d.tallyAttest port c

/-- TALLY_RECOVER (R377). -/
def execTallyRecover (dt : Nat) (port : Port) (s : State) : Host.Outcome State Fault Refusal :=
  s.act dt fun d => d.onCommand port 0x0004 fun c d => d.tallyRecover port c

/-- TALLY_RECOVER_WAIT_END (R377): 16 ticks after acceptance. -/
def execTallyRecoverWaitEnd (dt : Nat) (port : Port) (s : State) : Host.Outcome State Fault Refusal :=
  s.act dt fun d =>
    match d.ks.recover.find? fun r => decide (r.port = port) && decide (r.tick + 16 ≤ d.ck.tick) with
    | some r => if d.pilotRuns then d.recoverEnd r else d
    | none => d

/-- RECORD_FREEZE (R282). -/
def execRecordFreeze (dt : Nat) (port : Port) (s : State) : Host.Outcome State Fault Refusal :=
  s.act dt fun d => d.onCommand port 0x0010 fun _ d => d.recordFreeze port

/-- RECORD_LIST (R367). -/
def execRecordList (dt : Nat) (port : Port) (s : State) : Host.Outcome State Fault Refusal :=
  s.act dt fun d => d.onCommand port 0x0011 fun c d => d.recordList port c

/-- RECORD_READ_CERT (R364). -/
def execRecordReadCert (dt : Nat) (port : Port) (s : State) : Host.Outcome State Fault Refusal :=
  s.act dt fun d => d.onCommand port 0x0012 fun c d => d.deliver port 0x0012 (c.value 1 2) (c.value 3 2) certWords

/-- PEER_SEND (R418). -/
def execPeerSend (dt : Nat) (port : Port) (s : State) : Host.Outcome State Fault Refusal :=
  s.act dt fun d => d.onCommand port 0x0040 fun c d => d.peerSend port c

/-- PEER_DELIV_TIMEOUT (R418). -/
def execPeerDelivTimeout (dt : Nat) (port : Port) (s : State) : Host.Outcome State Fault Refusal :=
  s.act dt fun d => if d.pilotRuns then d.peerTimeout port else d

/-- PEER_INBOX_DELIVER (R283). -/
def execPeerInboxDeliver (dt : Nat) (port : Port) (s : State) : Host.Outcome State Fault Refusal :=
  s.act dt fun d => if d.pilotRuns then d.inboxDeliver port else d

/-- SLEEP_REQUEST (R282). -/
def execSleepRequest (dt : Nat) (port : Port) (s : State) : Host.Outcome State Fault Refusal :=
  s.act dt fun d => d.onCommand port 0x0050 fun _ d => d.sleepRequest port

/-- ENTER_SERVICE_STEP0 (R284). -/
def execEnterServiceStep0 (dt : Nat) (port : Port) (s : State) : Host.Outcome State Fault Refusal :=
  s.act dt fun d => d.onCommand port 0x0060 fun c d => if c.word 1 = 0 then d.serviceNonce port else d

/-- ENTER_SERVICE_STEP1 (R286). -/
def execEnterServiceStep1 (dt : Nat) (port : Port) (s : State) : Host.Outcome State Fault Refusal :=
  s.act dt fun d => d.onCommand port 0x0060 fun c d => if c.word 1 = 1 then d.serviceToken port c else d

/-- LEAVE_SERVICE (R287). -/
def execLeaveService (dt : Nat) (port : Port) (s : State) : Host.Outcome State Fault Refusal :=
  s.act dt fun d => d.onCommand port 0x0061 fun c d =>
    { d with pl := { d.pl with leaveReq := d.pl.leaveReq ++ [(port, c.acceptAt)] } }.setStarted port

/-- LOGBOOK_FREEZE (R475). -/
def execLogbookFreeze (dt : Nat) (port : Port) (s : State) : Host.Outcome State Fault Refusal :=
  s.act dt fun d => d.onCommand port 0x0070 fun _ d =>
    { d with lb := { d.lb with frzCmd := d.lb.frzCmd ++ [port] } }.setStarted port

/-- PILOT_EXCEPTION (R289). -/
def execPilotException (dt : Nat) (vector : Byte) (pc sp : BitVec 28) (frame : List Word) (s : State) :
    Host.Outcome State Fault Refusal :=
  s.act dt fun d => if d.pilotRuns then d.pilotException vector.toNat pc.toNat sp.toNat frame else d

/-- PILOT_WINDOW_MISSED (R290). -/
def execPilotWindowMissed (dt : Nat) (port : Port) (pc sp : BitVec 28) (s : State) :
    Host.Outcome State Fault Refusal :=
  s.act dt fun d =>
    match d.missedWindow port with
    | some cause => if d.pilotRuns then d.pilotFault cause 0 pc.toNat sp.toNat else d
    | none => d

/-! ### Ring frames -/

/-- LINK_RETRY_TIMEOUT (R394). -/
def execLinkRetryTimeout (dt : Nat) (link : Link) (s : State) : Host.Outcome State Fault Refusal :=
  s.act dt fun d => if d.linkLive link then d.retryTimeout link else d

/-- LINK_TRANSMIT (R392). -/
def execLinkTransmit (dt : Nat) (link : Link) (s : State) : Host.Outcome State Fault Refusal :=
  s.act dt fun d => d.linkTransmit link

/-- THROUGH_FRAME_FORWARD (R391). -/
def execThroughFrameForward (dt : Nat) (link : Link) (bytes : List Byte) (s : State) :
    Host.Outcome State Fault Refusal :=
  s.act dt fun d => d.recvBytes link bytes

/-- PING (R383). -/
def execPing (dt : Nat) (link : Link) (token : Byte) (s : State) : Host.Outcome State Fault Refusal :=
  s.act dt fun d => if d.linksTrain then d.onWire fun d => d.takePing link token.toNat else d

/-- PONG_SEND (R383). -/
def execPongSend (dt : Nat) (link : Link) (turn : Fin 10) (s : State) : Host.Outcome State Fault Refusal :=
  s.act dt fun d => if d.linksTrain then d.onWire fun d => d.sendPong link turn.val else d

/-- PONG (R383): `delay16` is t_rx − t_tx in 1/16 cycle. The mean takes every measurement alike, whatever its token. -/
def execPong (dt : Nat) (link : Link) (_token : Byte) (delay16 : Nat) (turn : Fin 10) (s : State) :
    Host.Outcome State Fault Refusal :=
  s.act dt fun d => if d.linksTrain then d.onWire fun d => d.takePong link delay16 turn.val else d

/-- ACK (R394). -/
def execAck (dt : Nat) (link : Link) (seq : BitVec 12) (s : State) : Host.Outcome State Fault Refusal :=
  s.act dt fun d => d.recvSet link 1 seq.toNat fun d => d.takeAck link seq.toNat

/-- NAK (R394). -/
def execNak (dt : Nat) (link : Link) (seq : BitVec 12) (s : State) : Host.Outcome State Fault Refusal :=
  s.act dt fun d => d.recvSet link 2 seq.toNat fun d => d.takeNak link seq.toNat

/-- CRD (R391). -/
def execCrd (dt : Nat) (link : Link) (cls : Fin 4) (count : Byte) (s : State) : Host.Outcome State Fault Refusal :=
  s.act dt fun d => d.recvSet link 0 (cls.val + 256 * count.toNat) fun d => d.takeCrd link cls.val count.toNat

/-- MARK (R402). A live MARK of a replay is discarded (R480). -/
def execMark (dt : Nat) (link : Link) (tick : BitVec 56) (acc : BitVec 24) (hops : BitVec 10)
    (check : BitVec 16) (fwd : Nat) (s : State) : Host.Outcome State Fault Refusal :=
  s.act dt fun d =>
    if d.linkLive link ∧ d.pw.mode ≠ .replay then d.takeMark link tick.toNat acc.toNat hops.toNat check.toNat fwd
    else d

/-- SLEEP (R432). -/
def execSleep (dt : Nat) (link : Link) (s : State) : Host.Outcome State Fault Refusal :=
  s.act dt fun d => d.onWire fun d => if d.linkLive link then d.modLink link fun x => { x with asleep := true } else d

/-- PASSON (R433). -/
def execPasson (dt : Nat) (link : Link) (s : State) : Host.Outcome State Fault Refusal :=
  s.act dt fun d => d.onWire fun d => if d.linkLive link then d.passRestart link else d

/-- PASSOFF (R433). -/
def execPassoff (dt : Nat) (link : Link) (s : State) : Host.Outcome State Fault Refusal :=
  s.act dt fun d => d.onWire fun d => if d.linkLive link then d.passRestart link else d

/-- ENUMERATION_START (R396). -/
def execEnumerationStart (dt : Nat) (s : State) : Host.Outcome State Fault Refusal :=
  s.act dt fun d => if d.enumReady && d.pw.mode.timetabled then d.startEnum else d

/-- ENUM (R397). -/
def execEnum (dt : Nat) (link : Link) (bytes : List Byte) (s : State) : Host.Outcome State Fault Refusal :=
  s.act dt fun d => d.recvBytes link bytes

/-- ENUM_HOLD_TIMEOUT (R397): 100 ms after the ENUM arrived. -/
def execEnumHoldTimeout (dt : Nat) (s : State) : Host.Outcome State Fault Refusal :=
  s.act dt fun d =>
    match d.rg.enumHeld with
    | some (_, dir, _) => if d.rg.enumAt + 100000000 ≤ d.now then d.turnEnum dir else d
    | none => d

/-- ENUM_END (R397). -/
def execEnumEnd (dt : Nat) (link : Link) (bytes : List Byte) (s : State) : Host.Outcome State Fault Refusal :=
  s.act dt fun d => d.recvBytes link bytes

/-- ENUM_RESTART_TIMEOUT (R399): 1 s after the anchor's ENUM. -/
def execEnumRestartTimeout (dt : Nat) (s : State) : Host.Outcome State Fault Refusal :=
  s.act dt fun d =>
    if d.isAnchor && ((d.rg.enumPhase == .down) || (d.rg.enumPhase == .up))
        && decide (d.rg.enumAt + 1000000000 ≤ d.now) then d.startEnum else d

/-- RINGMAP (R397). -/
def execRingmap (dt : Nat) (link : Link) (bytes : List Byte) (s : State) : Host.Outcome State Fault Refusal :=
  s.act dt fun d => d.recvBytes link bytes

/-- FOLD (R406). -/
def execFold (dt : Nat) (link : Link) (bytes : List Byte) (s : State) : Host.Outcome State Fault Refusal :=
  s.act dt fun d => d.recvBytes link bytes

/-- REP (R413). -/
def execRep (dt : Nat) (link : Link) (bytes : List Byte) (s : State) : Host.Outcome State Fault Refusal :=
  s.act dt fun d => d.recvBytes link bytes

/-- BELAY (R414). -/
def execBelay (dt : Nat) (link : Link) (bytes : List Byte) (s : State) : Host.Outcome State Fault Refusal :=
  s.act dt fun d => d.recvBytes link bytes

/-- BELAY_WAIT_TIMEOUT (R414). -/
def execBelayWaitTimeout (dt : Nat) (member : Fin 4) (s : State) : Host.Outcome State Fault Refusal :=
  s.act dt fun d => if d.pw.mode.timetabled then d.belayTimeout member.val else d

/-- QUERY (R415). -/
def execQuery (dt : Nat) (link : Link) (bytes : List Byte) (s : State) : Host.Outcome State Fault Refusal :=
  s.act dt fun d => d.recvBytes link bytes

/-- TREP (R376). -/
def execTrep (dt : Nat) (link : Link) (bytes : List Byte) (s : State) : Host.Outcome State Fault Refusal :=
  s.act dt fun d => d.recvBytes link bytes

/-- QNONE (R415). -/
def execQnone (dt : Nat) (link : Link) (bytes : List Byte) (s : State) : Host.Outcome State Fault Refusal :=
  s.act dt fun d => d.recvBytes link bytes

/-- SEMCLAIM (R416). -/
def execSemclaim (dt : Nat) (link : Link) (bytes : List Byte) (s : State) : Host.Outcome State Fault Refusal :=
  s.act dt fun d => d.recvBytes link bytes

/-- SEMREL (R417). -/
def execSemrel (dt : Nat) (link : Link) (bytes : List Byte) (s : State) : Host.Outcome State Fault Refusal :=
  s.act dt fun d => d.recvBytes link bytes

/-- SEMSTATE (R416). -/
def execSemstate (dt : Nat) (link : Link) (bytes : List Byte) (s : State) : Host.Outcome State Fault Refusal :=
  s.act dt fun d => d.recvBytes link bytes

/-- PEER (R283). -/
def execPeer (dt : Nat) (link : Link) (bytes : List Byte) (s : State) : Host.Outcome State Fault Refusal :=
  s.act dt fun d => d.recvBytes link bytes

/-- DELIV (R418). -/
def execDeliv (dt : Nat) (link : Link) (bytes : List Byte) (s : State) : Host.Outcome State Fault Refusal :=
  s.act dt fun d => d.recvBytes link bytes

/-- KEEP (R428). -/
def execKeep (dt : Nat) (link : Link) (bytes : List Byte) (s : State) : Host.Outcome State Fault Refusal :=
  s.act dt fun d => d.recvBytes link bytes

/-- KEEP_SEND (R427): in a keep-alive entry. -/
def execKeepSend (dt : Nat) (s : State) : Host.Outcome State Fault Refusal :=
  s.act dt fun d => if d.taskNow .keepAlive then d.keepSend else d

/-- FRAME_CRC_FAILURE (R393): a frame whose CRC fails, or one that ends in ABORT. -/
def execFrameCrcFailure (dt : Nat) (link : Link) (bytes : List Byte) (aborted : Bool) (s : State) :
    Host.Outcome State Fault Refusal :=
  s.act dt fun d => if aborted then d.recvBad link false else d.recvBytes link bytes

/-- MALFORMED_FRAME (R389). -/
def execMalformedFrame (dt : Nat) (link : Link) (bytes : List Byte) (s : State) : Host.Outcome State Fault Refusal :=
  s.act dt fun d => d.recvBytes link bytes

/-- UNKNOWN_ORDERED_SET (R385). -/
def execUnknownOrderedSet (dt : Nat) (link : Link) (code : Byte) (s : State) : Host.Outcome State Fault Refusal :=
  s.act dt fun d => d.onWire fun d => d.unknownSet link code.toNat

/-! ### Modes and power -/

/-- ON_HIGH (R128). -/
def execOnHigh (dt : Nat) (s : State) : Host.Outcome State Fault Refusal := s.act dt fun d => d.onPinTo true

/-- ON_LOW (R128). -/
def execOnLow (dt : Nat) (s : State) : Host.Outcome State Fault Refusal := s.act dt fun d => d.onPinTo false

/-- PFAIL_ASSERTED (R129). -/
def execPfailAsserted (dt : Nat) (s : State) : Host.Outcome State Fault Refusal := s.act dt fun d => d.pfailPinTo true

/-- PFAIL_DEASSERTED (R131). -/
def execPfailDeasserted (dt : Nat) (s : State) : Host.Outcome State Fault Refusal := s.act dt fun d => d.pfailPinTo false

/-- PORT_CS_WAKE (R149), once the port's reset input is released. -/
def execPortCsWake (dt : Nat) (port : Port) (s : State) : Host.Outcome State Fault Refusal :=
  s.act dt fun d => if (d.port port).vddio && !(d.port port).rstLow then d.wakeSource .portCs port else d

/-- WAKE_TIMER_EXPIRY (R155): `seconds` 0 is off. -/
def execWakeTimerExpiry (dt : Nat) (s : State) : Host.Outcome State Fault Refusal :=
  s.act dt fun d => if d.pw.wakeTmr = 0 then d else d.wakeSource .timer .a

/-- WAKE_ATTEMPT_START (R135, R142). -/
def execWakeAttemptStart (dt : Nat) (s : State) : Host.Outcome State Fault Refusal := s.act dt Dev.attemptStart

/-- WAKE_ATTEMPT_TIMEOUT (R142). -/
def execWakeAttemptTimeout (dt : Nat) (missing : WakeCond) (s : State) : Host.Outcome State Fault Refusal :=
  s.act dt fun d => d.attemptFails missing

/-- COPY_CHECK_COMPLETE (R114): the bytes of the candidate at the head. -/
def execCopyCheckComplete (dt : Nat) (copy : List Byte) (s : State) : Host.Outcome State Fault Refusal :=
  s.act dt fun d => d.copyChecked copy

/-- PHASE_BOUNDARY (R136, R139): a boundary within LOAD or FILL, or the end of a phase of the start. -/
def execPhaseBoundary (dt : Nat) (s : State) : Host.Outcome State Fault Refusal :=
  s.act dt fun d =>
    if d.pw.mode = .wake ∨ d.pw.mode = .load ∨ d.pw.mode = .fill ∨ d.pw.mode = .test then d.phase id else d

/-- FILL_COMPLETE (R200). -/
def execFillComplete (dt : Nat) (s : State) : Host.Outcome State Fault Refusal := s.act dt Dev.fillDone

/-- TEST_COMPLETE (R138). -/
def execTestComplete (dt : Nat) (passed : Bool) (s : State) : Host.Outcome State Fault Refusal :=
  s.act dt fun d => d.testEnd passed

/-- RETAIN_ENTRY_COMPLETE (R147). -/
def execRetainEntryComplete (dt : Nat) (s : State) : Host.Outcome State Fault Refusal := s.act dt Dev.retainDone

/-- VDD_POWER_ON (R134). -/
def execVddPowerOn (dt : Nat) (s : State) : Host.Outcome State Fault Refusal := s.always dt Dev.powerOn

/-- VDD_BROWN_OUT (R498). -/
def execVddBrownOut (dt : Nat) (s : State) : Host.Outcome State Fault Refusal := s.always dt Dev.brownOut

/-- VDDIO_RISE (R503). -/
def execVddioRise (dt : Nat) (port : Port) (highRange : Bool) (s : State) : Host.Outcome State Fault Refusal :=
  s.always dt fun d => d.vddioUp port highRange

/-- VDDIO_FALL (R503). -/
def execVddioFall (dt : Nat) (port : Port) (s : State) : Host.Outcome State Fault Refusal :=
  s.always dt fun d => d.vddioDown port

/-- CLOCK_LOSS (R499). -/
def execClockLoss (dt : Nat) (s : State) : Host.Outcome State Fault Refusal := s.act dt Dev.clockLoss

/-- TEST_PIN_HIGH (R500). -/
def execTestPinHigh (dt : Nat) (s : State) : Host.Outcome State Fault Refusal :=
  s.always dt fun d =>
    if d.pw.powered then d.newLevels fun x => { x with testHigh := true } else { d with pw := { d.pw with testHigh := true } }

/-- TEST_PIN_LOW (R500). -/
def execTestPinLow (dt : Nat) (s : State) : Host.Outcome State Fault Refusal :=
  s.always dt fun d =>
    if d.pw.powered then d.newLevels fun x => { x with testHigh := false }
    else { d with pw := { d.pw with testHigh := false } }

/-- JTAG_EXTEST (R508). -/
def execJtagExtest (dt : Nat) (cells : List Bool) (s : State) : Host.Outcome State Fault Refusal :=
  s.act dt fun d => d.jtagBoundary .extest cells

/-- JTAG_IDCODE (R508). -/
def execJtagIdcode (dt : Nat) (s : State) : Host.Outcome State Fault Refusal :=
  s.act dt fun d => { d with jt := { d.jt with shifted := 0x1E01456B } }.jtagSelect .idcode false

/-- JTAG_SAMPLE_PRELOAD (R508). -/
def execJtagSamplePreload (dt : Nat) (cells : List Bool) (s : State) : Host.Outcome State Fault Refusal :=
  s.act dt fun d => d.jtagBoundary .sample cells

/-- JTAG_BYPASS (R508). -/
def execJtagBypass (dt : Nat) (s : State) : Host.Outcome State Fault Refusal :=
  s.act dt fun d => { d with jt := { d.jt with shifted := 0 } }.jtagSelect .bypass false

/-- JTAG_TEST_LOGIC_RESET (R508). -/
def execJtagTestLogicReset (dt : Nat) (s : State) : Host.Outcome State Fault Refusal :=
  s.act dt fun d => { d with jt := { d.jt with shifted := 0x1E01456B } }.jtagSelect .idcode true

/-! ### The harness -/

/-- HARNESS_MEASUREMENT (R447). -/
def execHarnessMeasurement (dt : Nat) (m : Measurement) (s : State) : Host.Outcome State Fault Refusal :=
  s.act dt fun d => d.monitor fun p => p.measure m

/-- FRZ_WIRE_TEST (R453). -/
def execFrzWireTest (dt : Nat) (wire : FrzWire) (crossed : Bool) (s : State) : Host.Outcome State Fault Refusal :=
  s.act dt fun d => d.monitor fun p => p.test wire crossed

/-- FRZ_PAIR_FILTERED (R452). -/
def execFrzPairFiltered (dt : Nat) (pair : PairState) (s : State) : Host.Outcome State Fault Refusal :=
  s.act dt fun d => d.monitor fun p => p.setPair pair

/-! ### Replay -/

/-- LOGBOOK_EXPORT (R476). -/
def execLogbookExport (dt : Nat) (port : Port) (s : State) : Host.Outcome State Fault Refusal :=
  s.act dt fun d => d.onCommand port 0x0071 fun c d => d.exportRun port c

/-- REPLAY_START (R477). -/
def execReplayStart (dt : Nat) (port : Port) (s : State) : Host.Outcome State Fault Refusal :=
  s.act dt fun d => d.onCommand port 0x0072 fun c d => d.replayStart port c

/-- REPLAY_FETCH_COMPLETE (R477). -/
def execReplayFetchComplete (dt : Nat) (s : State) : Host.Outcome State Fault Refusal := s.act dt Dev.fetchDone

/-- REPLAY_PLAYED_INPUT (R479). -/
def execReplayPlayedInput (dt : Nat) (s : State) : Host.Outcome State Fault Refusal := s.act dt Dev.playInput

/-- LOG_CAPTURE_WRITE (R471). -/
def execLogCaptureWrite (dt : Nat) (s : State) : Host.Outcome State Fault Refusal := s.act dt Dev.captureDrain

/-! ### Ring sleep -/

/-- PASS_ADDRESSED_FRAME (R435). -/
def execPassAddressedFrame (dt : Nat) (link : Link) (bytes : List Byte) (s : State) :
    Host.Outcome State Fault Refusal :=
  s.act dt fun d => d.passFrame link bytes

/-- PASS_TO_LISTEN (R439). -/
def execPassToListen (dt : Nat) (s : State) : Host.Outcome State Fault Refusal := s.act dt Dev.passListens

/-- BEACON_DETECTED (R438). -/
def execBeaconDetected (dt : Nat) (link : Link) (s : State) : Host.Outcome State Fault Refusal :=
  s.act dt fun d => d.beaconSeen link

/-- BEACON_START (R440). -/
def execBeaconStart (dt : Nat) (link : Link) (s : State) : Host.Outcome State Fault Refusal :=
  s.act dt fun d => d.beaconStart link

/-- BEACON_DRIVE_END (R438). -/
def execBeaconDriveEnd (dt : Nat) (link : Link) (s : State) : Host.Outcome State Fault Refusal :=
  s.act dt fun d => d.beaconEnds link

/-! ### Ticks -/

/-- TICK_BOUNDARY (R22): the rest of the tick passes, then the boundary's actions follow in slot 0. -/
def execTickBoundary (s : State) : Host.Outcome State Fault Refusal :=
  s.act 0 fun d => if d.ck.running then d.toBoundary.tickBoundary else d

/-- URGENT_CHECK_POINT (R65). -/
def execUrgentCheckPoint (dt : Nat) (s : State) : Host.Outcome State Fault Refusal := s.act dt Dev.checkPoint

/-- WINDOW_ENTRY_START (R60). -/
def execWindowEntryStart (dt : Nat) (entry : Nat) (s : State) : Host.Outcome State Fault Refusal :=
  s.act dt fun d => d.entryStarts entry

/-- WINDOW_ENTRY_END (R80). -/
def execWindowEntryEnd (dt : Nat) (entry : Nat) (s : State) : Host.Outcome State Fault Refusal :=
  s.act dt fun d => d.entryEnds entry

/-- PAGE_STORE_COMMIT (R231). -/
def execPageStoreCommit (dt : Nat) (verified : Bool) (s : State) : Host.Outcome State Fault Refusal :=
  s.act dt fun d => d.programEnds verified

/-- MAP_COMMIT_COMPLETE (R229). -/
def execMapCommitComplete (dt : Nat) (s : State) : Host.Outcome State Fault Refusal := s.act dt Dev.commitEnds

/-- WAKE_COMPLETE (R135). -/
def execWakeComplete (dt : Nat) (flash : FlashId) (headerA headerB : List Byte) (s : State) :
    Host.Outcome State Fault Refusal :=
  s.act dt fun d => d.wakeDone flash headerA headerB

end Sys2Proof.Machine
end

