-- ==== Sys2Proof/Machine/Dispatch.lean ====
section
/-!
DEFINITION. The effect of a command: one arm per constructor of Instr.
-/
namespace Sys2Proof.Machine
open Sys2Proof

/-- The effect of a command on everything but the queue. -/
def exec (i : Instr) (s : State) : Host.Outcome State Fault Refusal :=
  match i with
  | .registerWrite dt party addr v => Sys2Proof.Machine.execRegisterWrite dt party addr v s
  | .snapshotRead dt party addr => Sys2Proof.Machine.execSnapshotRead dt party addr s
  | .tickBoundary => Sys2Proof.Machine.execTickBoundary s
  | .urgentCheckPoint dt => Sys2Proof.Machine.execUrgentCheckPoint dt s
  | .retainEntryComplete dt => Sys2Proof.Machine.execRetainEntryComplete dt s
  | .windowEntryStart dt entry => Sys2Proof.Machine.execWindowEntryStart dt entry s
  | .windowEntryEnd dt entry => Sys2Proof.Machine.execWindowEntryEnd dt entry s
  | .tickPinReference dt => Sys2Proof.Machine.execTickPinReference dt s
  | .holdoverEntry dt => Sys2Proof.Machine.execHoldoverEntry dt s
  | .tickOutEdge dt => Sys2Proof.Machine.execTickOutEdge dt s
  | .read dt port head deltas cut => Sys2Proof.Machine.execRead dt port head deltas cut s
  | .write dt port head words => Sys2Proof.Machine.execWrite dt port head words s
  | .readStatus dt port head deltas cut => Sys2Proof.Machine.execReadStatus dt port head deltas cut s
  | .readSfdp dt port head deltas => Sys2Proof.Machine.execReadSfdp dt port head deltas s
  | .resetEnable dt port head => Sys2Proof.Machine.execResetEnable dt port head s
  | .resetPort dt port head rise => Sys2Proof.Machine.execResetPort dt port head rise s
  | .unknownCommand dt port head => Sys2Proof.Machine.execUnknownCommand dt port head s
  | .portWordWrite dt port => Sys2Proof.Machine.execPortWordWrite dt port s
  | .portWordRead dt port => Sys2Proof.Machine.execPortWordRead dt port s
  | .portReset dt port => Sys2Proof.Machine.execPortReset dt port s
  | .portReady dt port => Sys2Proof.Machine.execPortReady dt port s
  | .hldAppendWrite dt hold value => Sys2Proof.Machine.execHldAppendWrite dt hold value s
  | .mergeCommit dt port => Sys2Proof.Machine.execMergeCommit dt port s
  | .mergeAgeOut dt port => Sys2Proof.Machine.execMergeAgeOut dt port s
  | .mergeRmw dt port => Sys2Proof.Machine.execMergeRmw dt port s
  | .scrubSlot dt bank fault => Sys2Proof.Machine.execScrubSlot dt bank fault s
  | .eccLogClr dt party v => Sys2Proof.Machine.execEccLogClr dt party v s
  | .scrRateWrite dt party v => Sys2Proof.Machine.execScrRateWrite dt party v s
  | .eccTestWrite dt party v => Sys2Proof.Machine.execEccTestWrite dt party v s
  | .rawRead dt party => Sys2Proof.Machine.execRawRead dt party s
  | .rawWrite dt party => Sys2Proof.Machine.execRawWrite dt party s
  | .rawCheckWrite dt party => Sys2Proof.Machine.execRawCheckWrite dt party s
  | .pageStoreRead dt => Sys2Proof.Machine.execPageStoreRead dt s
  | .pageStoreCommit dt verified => Sys2Proof.Machine.execPageStoreCommit dt verified s
  | .mapCommitComplete dt => Sys2Proof.Machine.execMapCommitComplete dt s
  | .semLocalClaim dt party n => Sys2Proof.Machine.execSemLocalClaim dt party n s
  | .semLocalRelease dt party n => Sys2Proof.Machine.execSemLocalRelease dt party n s
  | .semRingClaim dt party n => Sys2Proof.Machine.execSemRingClaim dt party n s
  | .semRingRelease dt party n => Sys2Proof.Machine.execSemRingRelease dt party n s
  | .ringClaimTimeout dt n => Sys2Proof.Machine.execRingClaimTimeout dt n s
  | .mbxPost dt party ch v => Sys2Proof.Machine.execMbxPost dt party ch v s
  | .mbxTake dt party ch => Sys2Proof.Machine.execMbxTake dt party ch s
  | .mbxAckWrite dt party ch code => Sys2Proof.Machine.execMbxAckWrite dt party ch code s
  | .mbxClrStale dt party ch => Sys2Proof.Machine.execMbxClrStale dt party ch s
  | .mbxClrSndrst dt party ch => Sys2Proof.Machine.execMbxClrSndrst dt party ch s
  | .mbxClrAck dt party ch => Sys2Proof.Machine.execMbxClrAck dt party ch s
  | .mbxCfgWrite dt party ch v => Sys2Proof.Machine.execMbxCfgWrite dt party ch v s
  | .mbxAckTimeout dt ch => Sys2Proof.Machine.execMbxAckTimeout dt ch s
  | .commandGate dt port => Sys2Proof.Machine.execCommandGate dt port s
  | .commandAccept dt port => Sys2Proof.Machine.execCommandAccept dt port s
  | .tallyInc dt port => Sys2Proof.Machine.execTallyInc dt port s
  | .tallyRead dt port => Sys2Proof.Machine.execTallyRead dt port s
  | .tallyAttest dt port => Sys2Proof.Machine.execTallyAttest dt port s
  | .tallyRecover dt port => Sys2Proof.Machine.execTallyRecover dt port s
  | .tallyRecoverWaitEnd dt port => Sys2Proof.Machine.execTallyRecoverWaitEnd dt port s
  | .recordFreeze dt port => Sys2Proof.Machine.execRecordFreeze dt port s
  | .recordList dt port => Sys2Proof.Machine.execRecordList dt port s
  | .recordReadCert dt port => Sys2Proof.Machine.execRecordReadCert dt port s
  | .retirePage dt port => Sys2Proof.Machine.execRetirePage dt port s
  | .retireBank dt port => Sys2Proof.Machine.execRetireBank dt port s
  | .scrubRange dt port => Sys2Proof.Machine.execScrubRange dt port s
  | .configUpdateBegin dt port => Sys2Proof.Machine.execConfigUpdateBegin dt port s
  | .flashEraseComplete dt ok => Sys2Proof.Machine.execFlashEraseComplete dt ok s
  | .configUpdateData dt port ok => Sys2Proof.Machine.execConfigUpdateData dt port ok s
  | .configUpdateCommit dt port => Sys2Proof.Machine.execConfigUpdateCommit dt port s
  | .updateCommitComplete dt readback ok => Sys2Proof.Machine.execUpdateCommitComplete dt readback ok s
  | .peerSend dt port => Sys2Proof.Machine.execPeerSend dt port s
  | .peerDelivTimeout dt port => Sys2Proof.Machine.execPeerDelivTimeout dt port s
  | .sleepRequest dt port => Sys2Proof.Machine.execSleepRequest dt port s
  | .enterServiceStep0 dt port => Sys2Proof.Machine.execEnterServiceStep0 dt port s
  | .enterServiceStep1 dt port => Sys2Proof.Machine.execEnterServiceStep1 dt port s
  | .leaveService dt port => Sys2Proof.Machine.execLeaveService dt port s
  | .logbookFreeze dt port => Sys2Proof.Machine.execLogbookFreeze dt port s
  | .logbookExport dt port => Sys2Proof.Machine.execLogbookExport dt port s
  | .replayStart dt port => Sys2Proof.Machine.execReplayStart dt port s
  | .replayFetchComplete dt => Sys2Proof.Machine.execReplayFetchComplete dt s
  | .replayPlayedInput dt => Sys2Proof.Machine.execReplayPlayedInput dt s
  | .peerInboxDeliver dt port => Sys2Proof.Machine.execPeerInboxDeliver dt port s
  | .pilotException dt vector pc sp frame => Sys2Proof.Machine.execPilotException dt vector pc sp frame s
  | .pilotWindowMissed dt port pc sp => Sys2Proof.Machine.execPilotWindowMissed dt port pc sp s
  | .tallyUpdate dt t => Sys2Proof.Machine.execTallyUpdate dt t s
  | .eventRecordWrite dt => Sys2Proof.Machine.execEventRecordWrite dt s
  | .evcClaim dt party n => Sys2Proof.Machine.execEvcClaim dt party n s
  | .evcComplete dt party v => Sys2Proof.Machine.execEvcComplete dt party v s
  | .evcPendWrite dt party w v => Sys2Proof.Machine.execEvcPendWrite dt party w v s
  | .evcQrdWrite dt party queue v => Sys2Proof.Machine.execEvcQrdWrite dt party queue v s
  | .intakeRead dt ch => Sys2Proof.Machine.execIntakeRead dt ch s
  | .packerCoding dt ch => Sys2Proof.Machine.execPackerCoding dt ch s
  | .pkrArmWrite dt party ch => Sys2Proof.Machine.execPkrArmWrite dt party ch s
  | .signatureDone dt => Sys2Proof.Machine.execSignatureDone dt s
  | .auditVerifyDone dt => Sys2Proof.Machine.execAuditVerifyDone dt s
  | .repairReplicaTimeout dt => Sys2Proof.Machine.execRepairReplicaTimeout dt s
  | .harnessMeasurement dt m => Sys2Proof.Machine.execHarnessMeasurement dt m s
  | .frzWireTest dt wire crossed => Sys2Proof.Machine.execFrzWireTest dt wire crossed s
  | .frzPairFiltered dt pair => Sys2Proof.Machine.execFrzPairFiltered dt pair s
  | .onHigh dt => Sys2Proof.Machine.execOnHigh dt s
  | .onLow dt => Sys2Proof.Machine.execOnLow dt s
  | .pfailAsserted dt => Sys2Proof.Machine.execPfailAsserted dt s
  | .pfailDeasserted dt => Sys2Proof.Machine.execPfailDeasserted dt s
  | .portCsWake dt port => Sys2Proof.Machine.execPortCsWake dt port s
  | .wakeTimerExpiry dt => Sys2Proof.Machine.execWakeTimerExpiry dt s
  | .wakeAttemptStart dt => Sys2Proof.Machine.execWakeAttemptStart dt s
  | .wakeAttemptTimeout dt missing => Sys2Proof.Machine.execWakeAttemptTimeout dt missing s
  | .wakeComplete dt flash headerA headerB => Sys2Proof.Machine.execWakeComplete dt flash headerA headerB s
  | .copyCheckComplete dt copy => Sys2Proof.Machine.execCopyCheckComplete dt copy s
  | .phaseBoundary dt => Sys2Proof.Machine.execPhaseBoundary dt s
  | .fillComplete dt => Sys2Proof.Machine.execFillComplete dt s
  | .testComplete dt passed => Sys2Proof.Machine.execTestComplete dt passed s
  | .vddPowerOn dt => Sys2Proof.Machine.execVddPowerOn dt s
  | .vddBrownOut dt => Sys2Proof.Machine.execVddBrownOut dt s
  | .vddioRise dt port highRange => Sys2Proof.Machine.execVddioRise dt port highRange s
  | .vddioFall dt port => Sys2Proof.Machine.execVddioFall dt port s
  | .clockLoss dt => Sys2Proof.Machine.execClockLoss dt s
  | .testPinHigh dt => Sys2Proof.Machine.execTestPinHigh dt s
  | .jtagExtest dt cells => Sys2Proof.Machine.execJtagExtest dt cells s
  | .jtagIdcode dt => Sys2Proof.Machine.execJtagIdcode dt s
  | .jtagSamplePreload dt cells => Sys2Proof.Machine.execJtagSamplePreload dt cells s
  | .jtagBypass dt => Sys2Proof.Machine.execJtagBypass dt s
  | .jtagTestLogicReset dt => Sys2Proof.Machine.execJtagTestLogicReset dt s
  | .linkDetect dt link result => Sys2Proof.Machine.execLinkDetect dt link result s
  | .linkTrainingStep dt link inverted => Sys2Proof.Machine.execLinkTrainingStep dt link inverted s
  | .linkTrainingTimeout dt link => Sys2Proof.Machine.execLinkTrainingTimeout dt link s
  | .linkLossOfSignal dt link => Sys2Proof.Machine.execLinkLossOfSignal dt link s
  | .linkRetryTimeout dt link => Sys2Proof.Machine.execLinkRetryTimeout dt link s
  | .retrainTimeout dt link => Sys2Proof.Machine.execRetrainTimeout dt link s
  | .linkTransmit dt link => Sys2Proof.Machine.execLinkTransmit dt link s
  | .throughFrameForward dt link bytes => Sys2Proof.Machine.execThroughFrameForward dt link bytes s
  | .ping dt link token => Sys2Proof.Machine.execPing dt link token s
  | .pongSend dt link turn => Sys2Proof.Machine.execPongSend dt link turn s
  | .pong dt link token delay16 turn => Sys2Proof.Machine.execPong dt link token delay16 turn s
  | .ack dt link seq => Sys2Proof.Machine.execAck dt link seq s
  | .nak dt link seq => Sys2Proof.Machine.execNak dt link seq s
  | .crd dt link cls count => Sys2Proof.Machine.execCrd dt link cls count s
  | .mark dt link tick acc hops check fwd => Sys2Proof.Machine.execMark dt link tick acc hops check fwd s
  | .sleep dt link => Sys2Proof.Machine.execSleep dt link s
  | .passon dt link => Sys2Proof.Machine.execPasson dt link s
  | .passoff dt link => Sys2Proof.Machine.execPassoff dt link s
  | .enumerationStart dt => Sys2Proof.Machine.execEnumerationStart dt s
  | .enum dt link bytes => Sys2Proof.Machine.execEnum dt link bytes s
  | .enumHoldTimeout dt => Sys2Proof.Machine.execEnumHoldTimeout dt s
  | .enumEnd dt link bytes => Sys2Proof.Machine.execEnumEnd dt link bytes s
  | .enumRestartTimeout dt => Sys2Proof.Machine.execEnumRestartTimeout dt s
  | .ringmap dt link bytes => Sys2Proof.Machine.execRingmap dt link bytes s
  | .fold dt link bytes => Sys2Proof.Machine.execFold dt link bytes s
  | .rep dt link bytes => Sys2Proof.Machine.execRep dt link bytes s
  | .belay dt link bytes => Sys2Proof.Machine.execBelay dt link bytes s
  | .belayWaitTimeout dt member => Sys2Proof.Machine.execBelayWaitTimeout dt member s
  | .query dt link bytes => Sys2Proof.Machine.execQuery dt link bytes s
  | .trep dt link bytes => Sys2Proof.Machine.execTrep dt link bytes s
  | .qnone dt link bytes => Sys2Proof.Machine.execQnone dt link bytes s
  | .semclaim dt link bytes => Sys2Proof.Machine.execSemclaim dt link bytes s
  | .semrel dt link bytes => Sys2Proof.Machine.execSemrel dt link bytes s
  | .semstate dt link bytes => Sys2Proof.Machine.execSemstate dt link bytes s
  | .peer dt link bytes => Sys2Proof.Machine.execPeer dt link bytes s
  | .deliv dt link bytes => Sys2Proof.Machine.execDeliv dt link bytes s
  | .keep dt link bytes => Sys2Proof.Machine.execKeep dt link bytes s
  | .keepSend dt => Sys2Proof.Machine.execKeepSend dt s
  | .passAddressedFrame dt link bytes => Sys2Proof.Machine.execPassAddressedFrame dt link bytes s
  | .passToListen dt => Sys2Proof.Machine.execPassToListen dt s
  | .beaconDetected dt link => Sys2Proof.Machine.execBeaconDetected dt link s
  | .beaconStart dt link => Sys2Proof.Machine.execBeaconStart dt link s
  | .beaconDriveEnd dt link => Sys2Proof.Machine.execBeaconDriveEnd dt link s
  | .logCaptureWrite dt => Sys2Proof.Machine.execLogCaptureWrite dt s
  | .testPinLow dt => Sys2Proof.Machine.execTestPinLow dt s
  | .frameCrcFailure dt link bytes aborted => Sys2Proof.Machine.execFrameCrcFailure dt link bytes aborted s
  | .malformedFrame dt link bytes => Sys2Proof.Machine.execMalformedFrame dt link bytes s
  | .unknownOrderedSet dt link code => Sys2Proof.Machine.execUnknownOrderedSet dt link code s
  | .pilotHoldWrite dt addr v => Sys2Proof.Machine.execPilotHoldWrite dt addr v s

end Sys2Proof.Machine
end

