-- ==== Sys2Proof/Machine/Step.lean ====
section
/-!
DEFINITION. One step: the command at the front of the queue, or nothing on an empty queue.
-/
namespace Sys2Proof.Machine
open Sys2Proof

/-- One step: take the command at the front of the queue and run it on the state with the queue's rest; on an empty
queue the block idles (DESIGN CHOICE, log entry 9). -/
def step (s : State) : Host.Outcome State Fault Refusal :=
  match s.pending with
  | [] => .next s
  | c :: cs => exec c { s with pending := cs }

/-- The state with the command that a word of the table spells put at the front of its queue; unchanged where the word
spells none, which is every word: no row of the table has bits. -/
def State.withFetchWord (s : State) (nbits w : Nat) : State :=
  match decodeTableWord nbits w with
  | some i => { s with pending := i :: s.pending }
  | none => s

end Sys2Proof.Machine
end

