-- ==== Sys2Proof/Safety.lean ====
section
/-!
DEFINITION. What a safe step is, and the words the statements are written in: the device as a command finds it, a state with
another device, who may act, what memory shows, and the invariant that every step keeps.
-/
namespace Sys2Proof.Machine
open Sys2Proof

/-- A step neither faults nor refuses. -/
def Safe (s : State) : Prop := ∃ t, step s = .next t

/-- The device as a command finds it, `dt` slots after the command before. -/
def State.after (s : State) (dt : Nat) : Dev := s.dev.advance dt

/-- The state with another device and the same waiting commands. -/
def State.withDev (s : State) (d : Dev) : State := { s with dev := d }

/-- VDD is present and the party's accesses reach the core, at the slot of the command. -/
def State.acts (s : State) (dt : Nat) (y : Party) : Prop := s.dev.pw.powered = true ∧ (s.after dt).partyActs y = true

/-- VDD is present and a tick runs in a mode with an image timetable, at the slot of the command. -/
def State.timed (s : State) (dt : Nat) : Prop := s.dev.pw.powered = true ∧ (s.after dt).pw.mode.timetabled = true

/-- VDD is present, the port takes transactions, and a header spells a whole command in the port's protocol, with its address. -/
def State.opens (s : State) (dt : Nat) (p : Port) (head : List Byte) (op : PortOp) (addr : Nat) : Prop :=
  s.dev.pw.powered = true ∧ (s.after dt).portAlive p = true
    ∧ decodeHead ((s.after dt).wireOneS p) head = .whole op addr

/-- The pilot runs and has accepted the command `c` of a port, whose opcode is `op`, at the slot of the command. -/
def State.took (s : State) (dt : Nat) (p : Port) (op : Nat) (c : Cmd) : Prop :=
  s.dev.pw.powered = true ∧ (s.after dt).pilotRuns = true ∧ (s.after dt).cmd p = some c ∧ c.op = op ∧ c.phase = .accepted

/-- The bytes of a whole frame of a type arrive in order on a live link, in a mode with an image timetable other than REPLAY. -/
def State.frameIn (s : State) (dt : Nat) (l : Link) (bs : List Byte) (typ : FrameType) (f : Frame) (seq : Nat) : Prop :=
  s.timed dt ∧ (s.after dt).pw.mode ≠ .replay ∧ (s.after dt).linkLive l = true ∧ readFrame bs = .frame f seq ∧ f.typ = typ
    ∧ seq = ((s.after dt).link l).rxSeq

/-- A whole frame for this numbered node arrives, and not as a broadcast. -/
def State.frameHere (s : State) (dt : Nat) (l : Link) (bs : List Byte) (typ : FrameType) (f : Frame) (seq : Nat) : Prop :=
  s.frameIn dt l bs typ f seq ∧ (s.after dt).rg.numbered = true ∧ f.bcast = false ∧ f.dst = (s.after dt).rg.nodeId

/-- A whole broadcast of another node arrives at a numbered node on its upstream link. -/
def State.frameAll (s : State) (dt : Nat) (l : Link) (bs : List Byte) (typ : FrameType) (f : Frame) (seq : Nat) : Prop :=
  s.frameIn dt l bs typ f seq ∧ (s.after dt).rg.numbered = true ∧ f.bcast = true ∧ l = (s.after dt).logical .up
    ∧ f.src ≠ (s.after dt).rg.nodeId

/-- The device with a frame accepted on a link (R393, R468): the next sequence is expected, an ACK is owed, and the frame is
captured. -/
def State.accepted (s : State) (dt : Nat) (l : Link) (f : Frame) (seq : Nat) : Dev :=
  ((s.after dt).modLink l fun x =>
    { x with rxSeq := (x.rxSeq + 1) % 4096, ackOwed := some seq, nakSent := false }).captureFrame l f seq

/-- The device with an accepted frame that ends at this node: its credit is owed (R391). -/
def State.heard (s : State) (dt : Nat) (l : Link) (f : Frame) (seq : Nat) : Dev :=
  (s.accepted dt l f seq).oweCredit l f.typ.cls

/-- Every array word holds in one device what it holds in the other. -/
def Dev.sameMemory (d e : Dev) : Prop := ∀ a, e.rawGet a = d.rawGet a

/-- The invariant of memory: its list is canonical. -/
def State.memoryCanonical (s : State) : Prop := Memory.wf s.dev.ar.mem = true

end Sys2Proof.Machine
end

