-- ==== Sys2Proof/Certificates/Slice0/Obligations.lean ====
section
/-! DEFINITION. The statements about the model, in the order of OBLIGATIONS.json. -/

open Sys2Proof Sys2Proof.Machine

/-! ### The machine -/

/-- One step is one command, first in, first out; the idle step of an empty queue is the model's choice (log entry 9). -/
def Obligations.StepRunsFrontCommand : Prop :=
  (∀ (c : Instr) (s : State), step { s with pending := c :: s.pending } = exec c s)
  ∧ (∀ s : State, s.pending = [] → step s = .next s)
  ∧ (∀ (s : State) (nbits w : Nat), s.withFetchWord nbits w = s)

/-- R87: no command ends in a fault or a refusal, whatever the state. -/
def Obligations.EveryCommandCompletes : Prop :=
  (∀ (c : Instr) (s : State), ∃ t, exec c s = .next t ∧ t.pending = s.pending) ∧ ∀ s : State, Safe s

/-- R126, R134, R498, R500, R503: what a device without VDD does. -/
def Obligations.UnpoweredDevice : Prop :=
  ∀ (c : Instr) (s t : State), s.dev.pw.powered = false → exec c s = .next t →
    t.dev.now ≥ s.dev.now
    ∧ ((∀ dt, c ≠ .vddPowerOn dt) → t.dev.pw.powered = false
      ∧ t.dev = { s.dev with now := t.dev.now, ck := t.dev.ck, pw := t.dev.pw, pa := t.dev.pa, pb := t.dev.pb }
      ∧ t.dev.ck = { s.dev.ck with slot := t.dev.ck.slot } ∧ t.dev.pw = { s.dev.pw with testHigh := t.dev.pw.testHigh }
      ∧ ((∀ dt p b, c ≠ .vddioRise dt p b) → (∀ dt p, c ≠ .vddioFall dt p) →
        t.dev.pa = s.dev.pa ∧ t.dev.pb = s.dev.pb)
      ∧ ((∀ dt, c ≠ .testPinHigh dt) → (∀ dt, c ≠ .testPinLow dt) → t.dev.pw = s.dev.pw))

/-- R33, R200: the canonical form of the array's words is an invariant of the machine. -/
def Obligations.MemoryCanonicalKept : Prop :=
  ∀ s t : State, s.memoryCanonical → step s = .next t → t.memoryCanonical

/-- R256 to R258, R462: the mailbox books (8 to 13) balance in every state that a step leads to from one where they do. -/
def Obligations.MailboxBooksKept : Prop :=
  ∀ s t : State, (∀ c ∈ s.dev.cm.chans, c.words + c.free = 16 ∧ 16 ≤ c.stage.length) → step s = .next t →
    ∀ c ∈ t.dev.cm.chans, c.words + c.free = 16 ∧ 16 ≤ c.stage.length

/-- R127, R134: the state after power-on, and the invariants at it. -/
def Obligations.ResetState : Prop :=
  let d := State.reset.dev
  State.reset.pending = [] ∧ d.pw.powered = true ∧ d.pw.mode = .off ∧ d.pw.limpCause = 0 ∧ d.on = false
  ∧ d.pfail = true ∧ d.ck.running = false ∧ d.ck.active = .none ∧ (∀ p, (d.port p).ready = false ∧ d.cmd p = none)
  ∧ (∀ n, n < 64 → (d.src n).pend = false ∧ (d.src n).mask = true) ∧ State.reset.memoryCanonical
  ∧ (∀ a, d.rawGet a = 0#20) ∧ (∀ c ∈ d.cm.chans, c.words + c.free = 16 ∧ 16 ≤ c.stage.length)

/-! ### Supplies and JTAG -/

/-- R131, R134, R498, R503, R508: the VDD and VDDIO commands and the five JTAG commands. The levels that the boundary register
captures are free values (log entry 8); the states that survive a collapse beside the NV macros are the supplies' and the
pins' own (log entry 5). -/
def Obligations.SuppliesAndJtag : Prop :=
  ∀ (s : State) (dt : Nat) (p : Port),
    let d := s.after dt
    let pw := d.pw
    (pw.powered = true → exec (.vddPowerOn dt) s = .next (s.withDev d))
    ∧ (pw.powered = false → ∃ t, exec (.vddPowerOn dt) s = .next t ∧ t.pending = s.pending
      ∧ t.dev.pw = { testHigh := pw.testHigh } ∧ t.dev.kl.map0 = d.kl.map0 ∧ t.dev.kl.map1 = d.kl.map1
      ∧ t.dev.kl.phys = d.kl.phys ∧ t.dev.ar = {} ∧ t.dev.ck = {} ∧ t.dev.rg = {} ∧ t.dev.lb = {})
    ∧ (pw.powered = false → exec (.vddBrownOut dt) s = .next (s.withDev d))
    ∧ (pw.powered = true → ∃ t, exec (.vddBrownOut dt) s = .next t ∧ t.pending = s.pending
      ∧ t.dev.pw = { powered := false, testHigh := pw.testHigh } ∧ t.dev.kl.map0 = d.kl.map0
      ∧ t.dev.kl.map1 = d.kl.map1 ∧ t.dev.kl.phys = d.kl.phys ∧ t.dev.ar = {} ∧ t.dev.ck = {} ∧ t.dev.pl = {}
      ∧ t.dev.ks = {} ∧ t.dev.rg = {} ∧ t.dev.lb = {})
    ∧ (∀ high, ((d.port p).vddio = true → exec (.vddioRise dt p high) s = .next (s.withDev d))
      ∧ ((d.port p).vddio = false → exec (.vddioRise dt p high) s
        = .next (s.withDev (d.modPort p fun x =>
          { x with vddio := true, highRange := high, ready := false, resetAt := d.now }))))
    ∧ ((d.port p).vddio = false → exec (.vddioFall dt p) s = .next (s.withDev d))
    ∧ ((d.port p).vddio = true → pw.powered = false → exec (.vddioFall dt p) s
      = .next (s.withDev (d.modPort p fun x => { x with vddio := false, ready := false })))
    ∧ ((d.port p).vddio = true → pw.powered = true → pw.mode.responder = false →
      ∃ t, exec (.vddioFall dt p) s = .next t ∧ t.pending = s.pending ∧ (t.dev.port p).vddio = false
      ∧ (t.dev.port p).ready = false ∧ (t.dev.port p).rq = [] ∧ (t.dev.port p).resetEnabled = false
      ∧ (t.dev.port p).prst = min 16383 ((d.port p).prst + 1))
    ∧ (pw.powered = true → (pw.mode = .off → d.pfail = true ∨ (d.on = false ∧ d.wakeClosed = false)) →
      exec (.jtagIdcode dt) s
        = .next (s.withDev { d with jt := { d.jt with ir := .idcode, reset := false, shifted := 0x1E01456B } })
      ∧ exec (.jtagTestLogicReset dt) s
        = .next (s.withDev { d with jt := { d.jt with ir := .idcode, reset := true, shifted := 0x1E01456B } })
      ∧ exec (.jtagBypass dt) s
        = .next (s.withDev { d with jt := { d.jt with ir := .bypass, reset := false, shifted := 0 } })
      ∧ (∀ cells,
        (pw.mode ≠ .off → exec (.jtagSamplePreload dt cells) s
          = .next (s.withDev { d with jt := { d.jt with ir := .sample, reset := false, shifted := 0 } }))
        ∧ (pw.mode = .off → ∃ t, exec (.jtagSamplePreload dt cells) s = .next t ∧ t.pending = s.pending
          ∧ t.dev = { d with draws := d.draws + 1, jt :=
              { ir := .sample, reset := false, boundary := cells, shifted := t.dev.jt.shifted } })))
    ∧ (pw.powered = true → ∀ cells,
      (pw.mode ≠ .off → exec (.jtagExtest dt cells) s
          = .next (s.withDev { d with jt := { d.jt with ir := .extest, reset := false, shifted := 0 } }))
      ∧ (pw.mode = .off → ∃ t, exec (.jtagExtest dt cells) s = .next t ∧ t.pending = s.pending
          ∧ t.dev = { d with draws := d.draws + 1, jt :=
              { ir := .extest, reset := false, boundary := cells, shifted := t.dev.jt.shifted } }))
    ∧ (pw.powered = true → pw.mode = .off → d.pfail = false → d.on = true → ∃ t,
      exec (.jtagIdcode dt) s = .next t ∧ t.pending = s.pending ∧ t.dev.pw.mode = .wake ∧ t.dev.jt.ir = .idcode)

/-! ### Pins and modes -/

/-- R127 to R129, R133, R141, R499, R500: ON_HIGH, ON_LOW, PFAIL_ASSERTED, PFAIL_DEASSERTED, CLOCK_LOSS, TEST_PIN_HIGH and
TEST_PIN_LOW in RUN, HOLD, STORE, LIMP, SERVICE and REPLAY. -/
def Obligations.PinLevels : Prop :=
  ∀ (s : State) (dt : Nat), s.dev.pw.powered = true →
    let d := s.after dt
    let pw := d.pw
    (pw.onPin = true → exec (.onHigh dt) s = .next (s.withDev d))
    ∧ (pw.onPin = false → exec (.onLow dt) s = .next (s.withDev d))
    ∧ (pw.pfailPin = true → exec (.pfailAsserted dt) s = .next (s.withDev d))
    ∧ (pw.pfailPin = false → exec (.pfailDeasserted dt) s = .next (s.withDev d))
    ∧ (pw.mode.timetabled = true →
      (pw.onPin = false → ∃ t, exec (.onHigh dt) s = .next t ∧ t.pending = s.pending
        ∧ (pw.mode = .store → pw.testHigh = false → t.dev.pw.onLatched = true)
        ∧ t.dev = { d with pw := { pw with onPin := true, onLatched := t.dev.pw.onLatched,
                                           sleepPending := t.dev.pw.sleepPending }, lb := t.dev.lb })
      ∧ (pw.onPin = true → ∃ t, exec (.onLow dt) s = .next t ∧ t.pending = s.pending
        ∧ t.dev = { d with pw := { pw with onPin := false, sleepPending := t.dev.pw.sleepPending }, lb := t.dev.lb })
      ∧ (pw.pfailPin = false → ∃ t, exec (.pfailAsserted dt) s = .next t ∧ t.pending = s.pending
        ∧ t.dev = { d with pw := { pw with pfailPin := true }, lb := t.dev.lb })
      ∧ (pw.pfailPin = true → ∃ t, exec (.pfailDeasserted dt) s = .next t ∧ t.pending = s.pending
        ∧ t.dev = { d with pw := { pw with pfailPin := false }, lb := t.dev.lb })
      ∧ exec (.clockLoss dt) s = .next (s.withDev { d with pw := { pw with clockLost := true } })
      ∧ (∃ t, exec (.testPinHigh dt) s = .next t ∧ t.pending = s.pending ∧ t.dev.pfail = true ∧ t.dev.on = false
        ∧ t.dev = { d with pw := { pw with testHigh := true, sleepPending := t.dev.pw.sleepPending } })
      ∧ (∃ t, exec (.testPinLow dt) s = .next t ∧ t.pending = s.pending
        ∧ t.dev = { d with pw := { pw with testHigh := false, onLatched := t.dev.pw.onLatched,
                                           sleepPending := t.dev.pw.sleepPending } }))

/-- R131, R139 to R143, R147, R149, R151: ON_HIGH, ON_LOW, PFAIL_ASSERTED, PFAIL_DEASSERTED, PORT_CS_WAKE, WAKE_TIMER_EXPIRY and
RETAIN_ENTRY_COMPLETE where they change the mode. That sources of one slot share an always-on clock cycle is the model's choice (log
entry 79). -/
def Obligations.PowerTransitions : Prop :=
  ∀ (s : State) (dt : Nat) (p : Port), s.dev.pw.powered = true →
    let d := s.after dt
    let pw := d.pw
    (pw.mode = .off → d.jt.ir ≠ .extest →
      (pw.onPin = false → pw.testHigh = false → d.pfail = false → ∃ t, exec (.onHigh dt) s = .next t
        ∧ t.pending = s.pending ∧ t.dev.pw.mode = .wake ∧ t.dev.pw.wakeSrc = .on ∧ t.dev.pw.attempting = true
        ∧ t.dev.pw.shortWake = false ∧ t.dev.pw.limpCause = 0 ∧ t.dev.ar.mem = d.ar.mem)
      ∧ (pw.pfailPin = true → pw.testHigh = false → pw.clockLost = false → pw.onPin = true →
        ∃ t, exec (.pfailDeasserted dt) s = .next t
        ∧ t.pending = s.pending ∧ t.dev.pw.mode = .wake ∧ t.dev.pw.wakeSrc = .pfail ∧ t.dev.pw.attempting = true
        ∧ t.dev.pw.shortWake = false ∧ t.dev.pw.limpCause = 0 ∧ t.dev.ar.mem = d.ar.mem))
    ∧ (pw.mode.starting = true →
      (d.pfail = false → ∃ t, exec (.pfailAsserted dt) s = .next t ∧ t.pending = s.pending
        ∧ t.dev.pw.mode = .off ∧ t.dev.ar.mem = d.ar.mem ∧ t.dev.kl.map0 = d.kl.map0
        ∧ t.dev.kl.map1 = d.kl.map1 ∧ t.dev.kl.phys = d.kl.phys)
      ∧ (pw.onPin = true → pw.testHigh = false → pw.mode ≠ .wake ∨ pw.attempting = true →
        ∃ t, exec (.onLow dt) s = .next t ∧ t.pending = s.pending
        ∧ t.dev = { d with pw := { pw with onPin := false, offLatched := true }, lb := t.dev.lb })
      ∧ (pw.onPin = true → pw.testHigh = false → pw.mode = .wake → pw.attempting = false →
          d.wakeClosed = false → ∃ t, exec (.onLow dt) s = .next t ∧ t.pending = s.pending
        ∧ t.dev.pw.mode = .off ∧ t.dev.pw.inh = false ∧ t.dev.ar.mem = d.ar.mem))
    ∧ (pw.mode = .retain → pw.retainEntry = false →
      (pw.onPin = false → pw.testHigh = false → ∃ t, exec (.onHigh dt) s = .next t ∧ t.pending = s.pending
        ∧ t.dev.pw.mode = .wake ∧ t.dev.pw.wakeSrc = .on ∧ t.dev.pw.shortWake = true ∧ t.dev.pw.inh = true
        ∧ t.dev.ar = d.ar)
      ∧ (d.pfail = false → ∃ t, exec (.pfailAsserted dt) s = .next t ∧ t.pending = s.pending
        ∧ t.dev.pw.mode = .off ∧ t.dev.kl.map0 = d.kl.map0 ∧ t.dev.kl.map1 = d.kl.map1)
      ∧ ((d.port p).vddio = true → (d.port p).rstLow = false →
          pw.wakeEn.testBit (if p = .a then 3 else 4) = true → ∃ t, exec (.portCsWake dt p) s = .next t
        ∧ t.pending = s.pending ∧ t.dev.pw.mode = .wake ∧ t.dev.pw.wakeSrc = .portCs ∧ t.dev.pw.wakePort = p
        ∧ t.dev.pw.shortWake = true
        ∧ t.dev = { d.wakeLinks with pw := t.dev.pw, pl := { d.pl with nonce := none }, ev := t.dev.ev, lb := t.dev.lb })
      ∧ (pw.wakeTmr ≠ 0 → pw.wakeEn.testBit 5 = true → ∃ t, exec (.wakeTimerExpiry dt) s = .next t
        ∧ t.pending = s.pending ∧ t.dev.pw.mode = .wake ∧ t.dev.pw.wakeSrc = .timer ∧ t.dev.pw.shortWake = true
        ∧ t.dev = { d.wakeLinks with pw := t.dev.pw, pl := { d.pl with nonce := none }, ev := t.dev.ev, lb := t.dev.lb }))
    ∧ ((pw.mode ≠ .retain ∧ pw.mode ≠ .wake) ∨ pw.wakeEn.testBit (if p = .a then 3 else 4) = false →
      exec (.portCsWake dt p) s = .next (s.withDev d))
    ∧ (pw.mode = .wake → pw.shortWake = true → pw.wakeAt = d.now → pw.wakeSrc = .timer → (d.port p).vddio = true →
        (d.port p).rstLow = false → pw.wakeEn.testBit (if p = .a then 3 else 4) = true →
      exec (.portCsWake dt p) s = .next (s.withDev { d with pw := { pw with wakeSrc := .portCs, wakePort := p } }))
    ∧ (pw.mode ≠ .retain ∨ pw.wakeEn.testBit 5 = false ∨ pw.wakeTmr = 0 →
      exec (.wakeTimerExpiry dt) s = .next (s.withDev d))
    ∧ (pw.mode = .retain → pw.retainEntry = true → d.kl.seqStart = none →
      ∃ t, exec (.retainEntryComplete dt) s = .next t ∧ t.pending = s.pending
        ∧ (Memory.wf d.ar.mem = true → t.dev.sameMemory d)
        ∧ t.dev.ar.stripe = none ∧ t.dev.pw.retainEntry = false
        ∧ (pw.pfailPin = true → t.dev.pw.mode = .off)
        ∧ (d.pfail = false → pw.entryWake = none → t.dev.pw.mode = .retain ∧ t.dev.pw.inh = false)
        ∧ (∀ src, d.pfail = false → pw.entryWake = some src →
          t.dev.pw.mode = .wake ∧ t.dev.pw.wakeSrc = src ∧ t.dev.pw.shortWake = true))

/-- R72, R114, R135 to R143, R150, R200: WAKE_ATTEMPT_START, WAKE_ATTEMPT_TIMEOUT, WAKE_COMPLETE, COPY_CHECK_COMPLETE,
FILL_COMPLETE, TEST_COMPLETE and PHASE_BOUNDARY. -/
def Obligations.StartSequence : Prop :=
  ∀ (s : State) (dt : Nat), s.dev.pw.powered = true →
    let d := s.after dt
    let pw := d.pw
    (pw.mode = .wake →
      exec (.wakeAttemptStart dt) s = .next (s.withDev { d with pw := { pw with attempting := true } }))
    ∧ (∀ c, pw.mode = .wake → pw.attempting = true → pw.offLatched = false →
      ∃ t, exec (.wakeAttemptTimeout dt c) s = .next t ∧ t.pending = s.pending
        ∧ t.dev.pw = { pw with wakeFail := WakeCond.code c, wakeFails := min 16383 (pw.wakeFails + 1),
                               attempts := pw.attempts + 1, attempting := false,
                               limpCause := if pw.attempts = 3 then 5 else pw.limpCause,
                               inh := true, limpPin := t.dev.pw.limpPin }
        ∧ (t.dev.pw.limpPin = true ↔ t.dev.pw.limpCause = 5)
        ∧ t.dev = { d with pw := t.dev.pw, ev := t.dev.ev, lb := t.dev.lb })
    ∧ (∀ sf ha hb, pw.mode = .wake → pw.attempting = true → pw.offLatched = false → pw.shortWake = false →
      ∃ t, exec (.wakeComplete dt sf ha hb) s = .next t ∧ t.pending = s.pending
        ∧ t.dev.pw.mode = (if t.dev.cf.copySel = 2 then .fill else .load) ∧ t.dev.pw.attempting = false
        ∧ t.dev.pw.limpCause ≠ 5 ∧ t.dev.cf.sfdpOk = sfdpFound sf.sfdp ∧ t.dev.cf.read = flashRead sf
        ∧ t.dev.ar.mem = d.ar.mem)
    ∧ (∀ sf ha hb, pw.mode = .wake → pw.attempting = true → pw.offLatched = false → pw.shortWake = true →
        pw.limpCause ≠ 5 → d.cfgCrcNow = pw.retCrc →
      ∃ t, exec (.wakeComplete dt sf ha hb) s = .next t ∧ t.pending = s.pending
        ∧ t.dev.pw.mode = .run ∧ t.dev.ck.active = .run ∧ t.dev.ck.running = true ∧ t.dev.ck.slot = 0
        ∧ t.dev.ck.tick = (d.ck.tick + 1) % 2 ^ 56 ∧ t.dev.ev.live = true)
    ∧ (∀ c cs copy, pw.mode = .load → d.cf.cands = c :: cs → pw.offLatched = false →
      ∃ t, exec (.copyCheckComplete dt copy) s = .next t ∧ t.pending = s.pending
        ∧ (if copyReason copy false = 0 then t.dev.pw.mode = .fill ∧ t.dev.cf.copySel = copyCode c.copy
            ∧ t.dev.ck.running = true ∧ t.dev.ck.tick = 0 ∧ t.dev.ck.slot = 0
          else (∀ x ∈ cs, x.copy ≠ c.copy) →
            (match c.copy with
              | .copyA => t.dev.cf.rsnA
              | .copyB => t.dev.cf.rsnB) = copyReason copy false)
        ∧ t.dev.ar.mem = d.ar.mem)
    ∧ (pw.mode = .fill → pw.offLatched = false → ∃ t, exec (.fillComplete dt) s = .next t ∧ t.pending = s.pending
        ∧ t.dev.pw.mode = .test ∧ t.dev.ck = d.ck
        ∧ (d.ar.stripe = none → d.ks.slots = 0 → (∀ h ∈ d.ar.holds, h.persistent = false) →
          ∀ a, t.dev.rawGet a = 0#20))
    ∧ (∀ ok, pw.mode = .test → pw.testDone = false → pw.offLatched = false →
      exec (.testComplete dt ok) s = .next (s.withDev { d with pw :=
        { pw with testDone := true, limpCause := if ok = true ∨ d.cf.copySel = 2 then pw.limpCause else 3 } }))
    ∧ (pw.offLatched = false ∨ pw.mode.starting = false → exec (.phaseBoundary dt) s = .next (s.withDev d))
    ∧ (pw.offLatched = true → pw.mode.starting = true → d.on = false → d.wakeClosed = false →
      ∃ t, exec (.phaseBoundary dt) s = .next t ∧ t.pending = s.pending ∧ t.dev.pw.mode = .off
        ∧ t.dev.pw.inh = false ∧ t.dev.ar.mem = d.ar.mem)

/-! ### Host ports -/

/-- R160, R161, R163, R165, R185: WRITE at CS# fall, and what becomes of each word as its last byte crosses: R164, R173 to R175, R194, R195. That
the words cross by themselves as time passes is the model's choice (log entry 3). -/
def Obligations.WriteTransaction : Prop :=
  (∀ (s : State) (dt : Nat) (p : Port) (head : List Byte) (bus : Nat) (ws : List WireWord), s.opens dt p head .write bus →
    let d := s.after dt
    let a := bus / 2 % 2097152
    (d.portServed p = true → ∃ t is, exec (.write dt p head ws) s = .next t ∧ t.pending = s.pending
      ∧ (t.dev.port p).incoming = (d.port p).incoming.filter Incoming.live ++ is ∧ is.length = ws.length
      ∧ (∀ i w, ws[i]? = some w → is[i]? = some
          ({ addr := (a + i) % 2097152, word := w, at' := d.now + ((ws.take (i + 1)).map WireWord.delta).sum,
             last := decide (i + 1 = ws.length), live := false } : Incoming))
      ∧ (t.dev.port p).wq = (d.port p).wq ∧ (t.dev.port p).merge = (d.port p).merge ∧ (t.dev.port p).rmw = (d.port p).rmw
      ∧ (t.dev.port p).rq = [] ∧ (t.dev.port p).resetEnabled = false ∧ t.dev.port p.other = d.port p.other
      ∧ t.dev = { d with pa := t.dev.pa, pb := t.dev.pb, lb := t.dev.lb })
    ∧ (d.pw.mode.timetabled = false → exec (.write dt p head ws) s = .next (s.withDev (d.beginTx p))))
  ∧ (∀ (d : Dev) (p : Port) (i : Incoming), i.live = false →
    let x := d.port p
    let e := d.arrive p i
    let y := e.port p
    y.incoming = x.incoming.erase i ∧ e.port p.other = d.port p.other
    ∧ (i.word.whole = false ∨ (i.word.s0 = false ∧ i.word.s1 = false) → y.wq = x.wq ∧ y.merge = x.merge ∧ y.rmw = x.rmw
      ∧ y.wrCode = x.wrCode)
    ∧ (i.word.whole = true → i.word.s0 = true → i.word.s1 = true →
      (i.addr < 0x1E0000 → y.wq = (x.wq.filter fun z => match z with
            | .merged b _ => b != i.addr
            | _ => true) ++ [.full i.addr i.word.data i.at']
        ∧ y.merge = x.merge.filter (fun e => e.addr != i.addr) ∧ y.rmw = x.rmw.filter (fun m => m.addr != i.addr))
      ∧ (0x1E0000 ≤ i.addr → y.wq = x.wq ++ [.full i.addr i.word.data i.at'] ∧ y.merge = x.merge ∧ y.rmw = x.rmw))
    ∧ (i.word.whole = true → i.word.s0 = !i.word.s1 → i.addr < 0x1E0000 → d.pw.mode ≠ .limp → d.pw.mode ≠ .store →
      ((∀ e ∈ x.merge, e.addr ≠ i.addr) → x.merge.length < 8 →
        y.merge = x.merge ++ [{ addr := i.addr, lo := if i.word.s0 then some i.word.data.low else none,
                                hi := if i.word.s1 then some i.word.data.high else none, tick := d.ck.tick }]
        ∧ y.mergeFree = x.mergeFree - 1 ∧ y.wrCode = 0 ∧ y.wq = x.wq)
      ∧ (∀ e, x.merge.find? (fun e => e.addr == i.addr) = some e →
          (if i.word.s0 then e.lo = none ∧ e.hi ≠ none else e.hi = none ∧ e.lo ≠ none) →
        y.wq = x.wq ++ [.merged i.addr i.at'] ∧ y.wrCode = 0))
    ∧ (i.word.whole = true → i.word.s0 = !i.word.s1 → 0x1E0000 ≤ i.addr → i.addr < 0x1F0000 →
      y.merge = x.merge ∧ y.wrCode = 3 ∧ e.hn.lockViol = min 16383 (d.hn.lockViol + 1)))

/-- R160, R165, R166, R183, R185: RESET_ENABLE, UNKNOWN_COMMAND, RESET_PORT and PORT_READY. R164, R183, R184, R199, R252, R267 to R269: PORT_RESET and the effects of a port reset. -/
def Obligations.PortCommandsAndReset : Prop :=
  (∀ (s : State) (dt : Nat) (p : Port) (head : List Byte), s.dev.pw.powered = true → (s.after dt).pw.mode ≠ .replay →
    let d := s.after dt
    let x := d.port p
    let bad := if d.pw.mode.responder then x.badCmd else min 16383 (x.badCmd + 1)
    (x.vddio = true → x.resetAt + 1000 ≤ d.now → ∃ t, exec (.portReady dt p) s = .next t ∧ t.pending = s.pending
      ∧ t.dev = { d.modPort p fun x => { x with ready := true, rstLow := false } with lb := t.dev.lb })
    ∧ (x.vddio = false ∨ d.now < x.resetAt + 1000 → exec (.portReady dt p) s = .next (s.withDev d))
    ∧ (∀ a, s.opens dt p head .resetEnable a → ∃ t, exec (.resetEnable dt p head) s = .next t ∧ t.pending = s.pending
      ∧ t.dev = { (d.beginTx p).modPort p fun x => { x with resetEnabled := true } with lb := t.dev.lb })
    ∧ (d.portAlive p = true → decodeHead (d.wireOneS p) head = .unknown → ∃ t, exec (.unknownCommand dt p head) s = .next t
      ∧ t.pending = s.pending
      ∧ t.dev = { (d.beginTx p).modPort p fun x => { x with badCmd := bad } with lb := t.dev.lb })
    ∧ (∀ a rise, s.opens dt p head .resetPort a →
      (x.resetEnabled = false → ∃ t, exec (.resetPort dt p head rise) s = .next t ∧ t.pending = s.pending
        ∧ t.dev = { (d.beginTx p).modPort p fun x => { x with badCmd := bad } with lb := t.dev.lb })
      ∧ (x.resetEnabled = true → ∃ t, exec (.resetPort dt p head rise) s = .next t ∧ t.pending = s.pending
        ∧ t.dev = { (d.beginTx p).modPort p fun x => { x with resetDue := some (d.now + rise) } with lb := t.dev.lb }))
    ∧ (x.vddio = true → ∃ t y, exec (.portReset dt p) s = .next t ∧ t.pending = s.pending
      ∧ t.dev = ({ d.modPort p fun x => { x with rstLow := true } with lb := y }).portReset p))
  ∧ (∀ (d : Dev) (p : Port),
    let e := d.portReset p
    (d.pw.mode.responder = true → e = (d.endTx p).modPort p fun x => { x with resetDue := none })
    ∧ (d.pw.mode.responder = false →
      (e.port p).ready = false ∧ (e.port p).resetAt = d.now ∧ (e.port p).resetDue = none ∧ (e.port p).rq = []
      ∧ (e.port p).incoming = (d.port p).incoming.filter Incoming.live ∧ (e.port p).wq = (d.port p).wq
      ∧ (∀ m ∈ (e.port p).merge, m ∈ (d.port p).merge ∧ m.lo.isSome = true ∧ m.hi.isSome = true)
      ∧ (e.port p).resetEnabled = false ∧ (e.port p).wrCode = 0 ∧ (e.port p).prst = min 16383 ((d.port p).prst + 1)
      ∧ (e.party p.party).snaps = [] ∧ (e.party p.party).gather = [] ∧ e.pw.mode = d.pw.mode
      ∧ (∀ n, n < 64 → (e.semL n).owner ≠ some p.party)
      ∧ (∀ n, n < 64 → (d.semL n).owner = some p.party → (e.semL n).broken = true)
      ∧ (∀ n, (d.semL n).owner ≠ some p.party → e.semL n = d.semL n)
      ∧ (∀ k : Fin 6, (k : Nat) < d.cm.chans.length →
        (chanSender k = p.party → (e.chan k).sndrst = true ∧ (e.chan k).confirm = false)
        ∧ (chanReceiver k = p.party → (e.chan k).stale = true ∧ (e.chan k).notify = 0)
        ∧ ((k : Nat) < 2 → (e.chan k).queue = (d.chan k).queue)
        ∧ (chanSender k ≠ p.party → chanReceiver k ≠ p.party → e.chan k = d.chan k))
      ∧ e.cm.chans.length = d.cm.chans.length))

/-- R160, R161, R163, R171, R181: READ at CS# fall. R154, R165, R169: READ_STATUS and READ_SFDP. That the words of a READ STATUS are those of
the slot in which CS# falls is the model's reading (log entry 35). -/
def Obligations.ReadsAndStatus : Prop :=
  ∀ (s : State) (dt : Nat) (p : Port) (head : List Byte) (bus : Nat) (deltas : List Nat) (cut : Bool),
    let d := s.after dt
    let due := fun i => d.now + (deltas.take (i + 1)).sum
    (s.opens dt p head .read bus →
      (d.portServed p = true → ∃ t, exec (.read dt p head deltas cut) s = .next t ∧ t.pending = s.pending
        ∧ (t.dev.port p).rq.length = deltas.length
        ∧ (∀ i x, deltas[i]? = some x → (t.dev.port p).rq[i]? = some
            ({ addr := (bus / 2 + i) % 2097152, first := decide (i = 0), driveAt := due i, delta := x,
               last := decide (i + 1 = deltas.length), cut := cut && decide (i + 1 = deltas.length) } : ReadItem))
        ∧ (t.dev.port p).driven = [] ∧ (t.dev.port p).wq = (d.port p).wq ∧ t.dev.port p.other = d.port p.other
        ∧ t.dev = { d with pa := t.dev.pa, pb := t.dev.pb, lb := t.dev.lb })
      ∧ (d.pw.mode.responder = true → ∃ t, exec (.read dt p head deltas cut) s = .next t ∧ t.pending = s.pending
        ∧ (t.dev.port p).driven.length = deltas.length
        ∧ (∀ i v, (t.dev.port p).driven[i]? = some v → v.data = 0#14 ∧ v.code = 3 ∧ v.driveAt = due i)
        ∧ t.dev.port p.other = d.port p.other
        ∧ t.dev = { d with pa := t.dev.pa, pb := t.dev.pb }))
    ∧ (s.opens dt p head .readStatus bus → d.pw.mode ≠ .replay →
      ∃ t, exec (.readStatus dt p head deltas cut) s = .next t ∧ t.pending = s.pending
      ∧ (t.dev.port p).driven.length = deltas.length
      ∧ (∀ i v, (t.dev.port p).driven[i]? = some v →
        v.data = wd (if i % 2 = 0 then d.regMode else d.regPwr) ∧ v.code = 0 ∧ v.driveAt = due i)
      ∧ t.dev.port p.other = d.port p.other
      ∧ t.dev = { d with pa := t.dev.pa, pb := t.dev.pb, lb := t.dev.lb })
    ∧ (s.opens dt p head .readSfdp bus → d.pw.mode ≠ .replay →
      ∃ t, exec (.readSfdp dt p head deltas) s = .next t ∧ t.pending = s.pending
      ∧ (t.dev.port p).sfdpOut.length = deltas.length
      ∧ (∀ i b, (t.dev.port p).sfdpOut[i]? = some b → b.2 = due i ∧ (0x100 ≤ bus + i → b.1 = 0xFF#8)
        ∧ ∀ c, [0x53#8, 0x46#8, 0x44#8, 0x50#8][bus + i]? = some c → b.1 = c)
      ∧ t.dev.port p.other = d.port p.other
      ∧ t.dev = { d with pa := t.dev.pa, pb := t.dev.pb, lb := t.dev.lb })

/-! ### Array words -/

/-- R20, R47, R62, R175, R192, R195, R198: the four commands that write a data-array word, each in its slot, and what memory shows after them. -/
def Obligations.ArrayWrites : Prop :=
  ∀ (s : State) (dt : Nat) (p : Port) (a : Addr) (w : Word) (c : Instr), s.dev.pw.powered = true →
    let d := s.after dt
    Memory.wf d.ar.mem = true →
    ((∃ u, c = .portWordWrite dt p ∧ a.toNat < 0x1F0000 ∧ d.dueItem p = some (.full a.toNat w u)
        ∧ d.judge p a.toNat false = .accept)
      ∨ (∃ u e lo hi, c = .mergeCommit dt p ∧ d.dueItem p = some (.merged a.toNat u)
        ∧ (d.port p).merge.find? (fun e => e.addr == a.toNat && !e.lone) = some e ∧ e.lo = some lo ∧ e.hi = some hi
        ∧ w = Word.ofHalves lo hi ∧ d.judge p a.toNat false = .accept)
      ∨ (∃ m b, c = .mergeRmw dt p ∧ (d.port p).rmw.find? (fun m => d.rmwDue p m) = some m
        ∧ m.addr = a.toNat ∧ m.base = some b ∧ w = Word.ofHalves (m.lo.getD b.low) (m.hi.getD b.high)
        ∧ d.judge p a.toNat true = .accept)
      ∨ (c = .pilotHoldWrite dt a w ∧ d.pilotRuns = true ∧ a.toNat < 0x1E0000 ∧ d.writeHeld a.toNat = false)) →
    ∃ t, exec c s = .next t ∧ t.pending = s.pending ∧ t.dev.rawGet a.toNat = encodeWord w
      ∧ (∀ b, b ≠ a.toNat → t.dev.rawGet b = d.rawGet b)
      ∧ ((∃ v, c = .pilotHoldWrite dt a v) ∨ (t.dev.port p).wrCode = 0 ∨ (t.dev.port p).wrCode = 2)
      ∧ (∀ i, c = .portWordWrite dt p ∨ c = .mergeCommit dt p → d.dueItem p = some i →
        (t.dev.port p).wq = (d.port p).wq.erase i)
      ∧ (∀ m, c = .mergeRmw dt p → (d.port p).rmw.find? (fun m => d.rmwDue p m) = some m →
        (t.dev.port p).rmw = (d.port p).rmw.erase m)

/-- R39, R44 to R46, R176, R177, R216, R225, R237: PORT_WORD_WRITE of a refused word. R20, R62, R175: it acts in no other slot. -/
def Obligations.RefusedWrites : Prop :=
  ∀ (s : State) (dt : Nat) (p : Port), s.dev.pw.powered = true →
    let d := s.after dt
    (∀ a u w, a < 0x1F0000 → d.dueItem p = some (.full a w u) → d.judge p a false ≠ .accept →
      ∃ t, exec (.portWordWrite dt p) s = .next t ∧ t.pending = s.pending ∧ (t.dev.port p).wrCode = 3
        ∧ (t.dev.port p).wq = (d.port p).wq.erase (.full a w u) ∧ t.dev.sameMemory d
        ∧ t.dev.hn.lockViol = (match d.judge p a false with
          | .reserve | .policy _ => min 16383 (d.hn.lockViol + 1)
          | _ => d.hn.lockViol)
        ∧ t.dev.kl.refused = (if d.judge p a false = .budget then min 16383 (d.kl.refused + 1) else d.kl.refused)
        ∧ t.dev.kl.storeRef
          = (if d.judge p a false = .store then min 16383 (d.kl.storeRef + 1) else d.kl.storeRef)
        ∧ (∀ n, d.judge p a false = .policy n →
          (t.dev.hold n).refused = min 16383 ((d.hold n).refused + 1))
        ∧ t.dev.port p.other = d.port p.other)
    ∧ ((∀ i ∈ (d.port p).wq, d.mayUse (portCode p) (bankOf i.addr) = false ∨ d.now < i.arrived + 3) →
      exec (.portWordWrite dt p) s = .next (s.withDev d) ∧ exec (.mergeCommit dt p) s = .next (s.withDev d))

/-- R20, R39, R62, R170, R174, R175, R179, R181, R189: PORT_WORD_READ. -/
def Obligations.CheckedPortRead : Prop :=
  ∀ (s : State) (dt : Nat) (p : Port) (i : ReadItem) (rest : List ReadItem), s.dev.pw.powered = true →
    let d := s.after dt
    (d.port p).rq = i :: rest →
    (d.pw.mode ≠ .replay → (d.port p).wq = [] → d.mayUse (portCode p) (bankOf i.addr) = true → d.now + 64 ≤ i.driveAt →
        i.addr < 0x1F0000 →
      ∃ t v, exec (.portWordRead dt p) s = .next t ∧ t.pending = s.pending ∧ (t.dev.port p).rq = rest
        ∧ (t.dev.port p).driven = (d.port p).driven ++ [v] ∧ v.addr = i.addr ∧ v.driveAt = i.driveAt ∧ v.slot = d.now
        ∧ (i.addr < 0x1E0000 →
          let r := d.checkAt i.addr
          let wrote := (d.port p.other).touches.any fun t =>
            decide (d.now ≤ t.slot + 63) && decide (t.slot ≤ d.now + 63) && t.addr == i.addr && t.write
          v.data = (d.port p).overlay i.addr r.data
          ∧ v.code = (if wrote = true ∧ r.out ≠ .uncorrectable then 2 else r.out.status))
        ∧ (0x1E0000 ≤ i.addr → v.data = 0#14 ∧ v.code = 0)
        ∧ t.dev.sameMemory d)
    ∧ ((d.port p).wq ≠ [] ∨ d.mayUse (portCode p) (bankOf i.addr) = false ∨ i.driveAt < d.now + 64 →
      exec (.portWordRead dt p) s = .next (s.withDev d))

/-- R32, R187, R188: what the checker makes of a fresh code word with no, one and two bits inverted. -/
def Obligations.CodeCorrects : Prop :=
  ∀ w : Word, (decodeCode (encodeWord w)).out = .clean ∧ (decodeCode (encodeWord w)).data = w
    ∧ ∀ i, i < 20 →
      (decodeCode (encodeWord w ^^^ (1#20 <<< i))).out = .corrected
      ∧ (decodeCode (encodeWord w ^^^ (1#20 <<< i))).data = w
      ∧ ∀ j, j < 20 → i ≠ j →
        (decodeCode (encodeWord w ^^^ (1#20 <<< i) ^^^ (1#20 <<< j))).out = .uncorrectable

/-- R196, R198: MERGE_AGE_OUT and the read of MERGE_RMW. That the other rules of a refusal are applied as the half ages out, before any
read, is the model's choice (log entry 90). -/
def Obligations.MergeEntries : Prop :=
  ∀ (s : State) (dt : Nat) (p : Port), s.dev.pw.powered = true →
    let d := s.after dt
    (d.pw.mode.timetabled = true → ∃ t, exec (.mergeAgeOut dt p) s = .next t ∧ t.pending = s.pending
      ∧ (∀ e ∈ (t.dev.port p).merge, e ∈ (d.port p).merge
        ∧ (e.tick + 2 ≤ d.ck.tick → e.lo.isSome = true ∧ e.hi.isSome = true))
      ∧ (∀ e, (d.port p).merge = [e] → e.tick + 2 ≤ d.ck.tick → e.lo.isSome = false ∨ e.hi.isSome = false →
        (t.dev.port p).merge = [] ∧ (t.dev.port p).mergeFree = (d.port p).mergeFree + 1
        ∧ (d.judge p e.addr true = .accept → (t.dev.port p).rmw = (d.port p).rmw
          ++ [{ addr := e.addr, lo := e.lo, hi := e.hi, base := none, stage := false, since := d.now }])
        ∧ (d.judge p e.addr true ≠ .accept → (t.dev.port p).rmw = (d.port p).rmw ∧ (t.dev.port p).wrCode = 3))
      ∧ t.dev.sameMemory d ∧ t.dev.port p.other = d.port p.other)
    ∧ (∀ m, d.pw.mode ≠ .replay → (d.port p).rmw.find? (fun m => d.rmwDue p m) = some m → m.base = none →
      ∃ t, exec (.mergeRmw dt p) s = .next t ∧ t.pending = s.pending ∧ t.dev.sameMemory d
        ∧ (if (d.checkAt m.addr).out = .uncorrectable then
            (t.dev.port p).rmw = (d.port p).rmw.erase m ∧ (t.dev.port p).wrCode = 3
            ∧ (t.dev.port p).mAband = min 16383 ((d.port p).mAband + 1)
          else (t.dev.port p).rmw = (d.port p).rmw.replace m { m with base := some (d.checkAt m.addr).data }))
    ∧ ((∀ m ∈ (d.port p).rmw, d.rmwDue p m = false) → exec (.mergeRmw dt p) s = .next (s.withDev d))

/-- R50: HLD_APPEND_WRITE. -/
def Obligations.AppendPointerWrite : Prop :=
  ∀ (s : State) (dt : Nat) (n : Fin 16) (v : BitVec 28), s.dev.pw.powered = true →
    let d := s.after dt
    d.pilotRuns = true →
    let h := d.hold n
    let set := { d with ar := { d.ar with holds := d.ar.holds.modify n fun h => { h with append := v.toNat } } }
    (h.policy = .append → v.toNat ≤ 1024 * h.pages →
      exec (.hldAppendWrite dt n v) s = .next (s.withDev
        (if v.toNat = 1024 * h.pages ∧ h.append ≠ 1024 * h.pages then set.fire 25 else set)))
    ∧ (h.policy ≠ .append ∨ 1024 * h.pages < v.toNat → exec (.hldAppendWrite dt n v) s = .next (s.withDev (s.after dt)))

/-! ### Registers and array integrity -/

/-- R11, R13, R461: REGISTER_WRITE by access code; the whole next state of each case. That R13 judges each condition that involves the
field by itself is the model's reading (log entry 93). -/
def Obligations.RegisterWrites : Prop :=
  ∀ (s : State) (dt : Nat) (y : Party) (a : Addr) (v : Word), s.acts dt y →
    let d := s.after dt
    (y ≠ .pilot → (a = 0x1F0801#21 ∨ a = 0x1F0C80#21
        ∨ (0x1F0C00 ≤ a.toNat ∧ a.toNat < 0x1F0C80 ∧ a.toNat % 8 < 3)
        ∨ (0x1F1480 ≤ a.toNat ∧ a.toNat < 0x1F14C0) ∨ (0x1F1800 ≤ a.toNat ∧ a.toNat < 0x1F1804)) →
      exec (.registerWrite dt y a v) s
        = .next (s.withDev ({ d with hn := { d.hn with lockViol := min 16383 (d.hn.lockViol + 1) } }.fire 0)))
    ∧ (y = .pilot →
      let e := { d with ar := { d.ar with limit := v.toNat % 8192 } }
      exec (.registerWrite dt y 0x1F0801#21 v) s = .next (s.withDev (if e.configOk 0x1F0801 then e else d))
      ∧ (d.cf.copySel = 2 → d.cf.run = harbourTt 6 → d.ck.lenReg = 100000 → d.ck.slip = 0 → v.toNat % 8192 = 2048 →
        exec (.registerWrite dt y 0x1F0801#21 v) s = .next (s.withDev e)))
    ∧ (a = 0x1F0030#21 ∨ a = 0x1F0031#21 ∨ (0x1F0000 ≤ a.toNat ∧ a.toNat < 0x1F0030)
        ∨ (0x1F2800 ≤ a.toNat ∧ a.toNat < 0x1F4000) ∨ (0x1F7000 ≤ a.toNat ∧ a.toNat < 0x1FFE00) →
      exec (.registerWrite dt y a v) s = .next (s.withDev d))
    ∧ exec (.registerWrite dt y 0x1F0070#21 0#14) s
        = .next (s.withDev { d with hn := { d.hn with lockViol := 0 } })
    ∧ exec (.registerWrite dt y 0x1F0061#21 0#14) s
        = .next (s.withDev { d with pl := { d.pl with gateRef := 0 } })
    ∧ exec (.registerWrite dt y 0x1F0820#21 0#14) s
        = .next (s.withDev { d with ar := { d.ar with corr := 0 } })
    ∧ (v ≠ 0#14 → a = 0x1F0070#21 ∨ a = 0x1F0061#21 ∨ a = 0x1F0820#21 →
      exec (.registerWrite dt y a v) s = .next (s.withDev d))
    ∧ exec (.registerWrite dt y 0x1F0032#21 v) s
        = .next (s.withDev { d with pw := { d.pw with wakeEnSh := v.toNat % 64 } })
    ∧ exec (.registerWrite dt y 0x1F2040#21 v) s = .next (s.withDev
        (if y = .portA then { d with rg := { d.rg with needASh := v.toNat.testBit 0 } } else d))
    ∧ exec (.registerWrite dt y 0x1F2401#21 v) s = .next (s.withDev
        (if v.toNat % 4096 = 0 then d else { d with lb := { d.lb with keepSh := v.toNat % 4096 } }))

/-- R8: SNAPSHOT_READ, and what the snapshot is for. -/
def Obligations.SnapshotReads : Prop :=
  ∀ (s : State) (dt : Nat) (y : Party) (a : Addr) (n : Nat), s.acts dt y → (a.toNat, n) ∈ multiValues →
    let d := s.after dt
    ∃ t, exec (.snapshotRead dt y a) s = .next t ∧ t.pending = s.pending
      ∧ (t.dev.party y).back = (s.after dt).regNow y a.toNat
      ∧ (∀ z, z ≠ y → t.dev.party z = d.party z)
      ∧ t.dev = { s.after dt with yA := t.dev.yA, yB := t.dev.yB, yP := t.dev.yP }
      ∧ (∀ j, 0 < j → j < n → ∀ later : Dev, (later.party y).snaps = (t.dev.party y).snaps →
        (later.regRead y (a.toNat + j)).2 = (s.after dt).regNow y (a.toNat + j))

/-- R191, R201, R203, R204, R208, R209: SCRUB_SLOT with no raw operation waiting, outside REPLAY. R20, R62: it acts in no other slot. -/
def Obligations.ScrubSlots : Prop :=
  ∀ (s : State) (dt : Nat) (b : Fin 4) (fault : Code), s.timed dt →
    let d := s.after dt
    let x := d.scrubBank b
    (d.mayUse 6 b = false → exec (.scrubSlot dt b fault) s = .next (s.withDev d))
    ∧ (Memory.wf d.ar.mem = true → d.pw.mode ≠ .replay → d.ar.rawOp = none → (b : Nat) < d.ar.banks.length →
        d.mayUse 6 b = true →
      ∃ t, exec (.scrubSlot dt b fault) s = .next t ∧ t.pending = s.pending
      ∧ (∀ w, x.rwb = some w ∨ (x.rwb = none ∧ x.repair = [] ∧ x.wb = some w) → d.bankDead w.addr = false →
        (t.dev.scrubBank b).rwb = none ∧ (x.rwb = none → (t.dev.scrubBank b).wb = none)
        ∧ (w.touched = false → t.dev.rawGet w.addr = encodeWord w.data
          ∧ ∀ c, c ≠ w.addr → t.dev.rawGet c = d.rawGet c)
        ∧ (w.touched = true → t.dev.sameMemory d ∧ t.dev.ar.suppr = min 16383 (d.ar.suppr + 1)))
      ∧ (∀ a rest, x.rwb = none → x.repair = a :: rest →
        (t.dev.scrubBank b).repair = rest ∧ t.dev.sameMemory d
        ∧ ((d.checkAt a).out = .clean → (t.dev.scrubBank b).rwb = none)
        ∧ ((d.checkAt a).out = .corrected →
          (t.dev.scrubBank b).rwb = some { addr := a, data := (d.checkAt a).data, touched := false }
          ∧ t.dev.ar.corr = d.ar.corr))
      ∧ (x.rwb = none → x.repair = [] → x.wb = none → x.readsThisTick < d.ar.rate →
        let a := sweepAddr b x.bptr
        let ends := sweepLen b ≤ x.bptr + 1
        let r := d.checkAt a
        t.dev.sameMemory d
        ∧ (t.dev.scrubBank b).bptr = (if ends then 0 else x.bptr + 1)
        ∧ (t.dev.scrubBank b).readsThisTick = x.readsThisTick + 1
        ∧ t.dev.ar.sweeps = (if ends then min 16383 (d.ar.sweeps + 1) else d.ar.sweeps)
        ∧ t.dev.ar.scrCorr = (if r.out = .corrected then min 16383 (d.ar.scrCorr + 1) else d.ar.scrCorr)
        ∧ t.dev.ar.scrUncorr = (if r.out = .uncorrectable then min 16383 (d.ar.scrUncorr + 1) else d.ar.scrUncorr)
        ∧ (x.bptr < sweepLen b → r.out = .corrected →
          (t.dev.scrubBank b).wb = some { addr := a, data := r.data, touched := false }))
      ∧ (∀ j, x.rwb = none → x.repair = [] → x.wb = none → d.ar.rate ≤ x.readsThisTick → d.ar.stripe = some j →
          j.bank = b → j.phase ≠ .copy → j.phase ≠ .back → j.idx < j.buf.length → t.dev.sameMemory d))

/-- R202, R213, R217, R218: ECC_LOG_CLR, SCR_RATE_WRITE, ECC_TEST_WRITE, RAW_READ, RAW_WRITE and RAW_CHECK_WRITE. R204, R217: SCRUB_SLOT with a raw operation waiting. -/
def Obligations.EccAndRawOperations : Prop :=
  (∀ (s : State) (dt : Nat) (y : Party) (v : Word), s.acts dt y →
    let d := s.after dt
    let ar := d.ar
    exec (.eccLogClr dt y v) s = .next (s.withDev (if v = 1#14 then
        { d with ar := { ar with log := List.replicate 64 none, logHead := 0, logWrapped := false, logNewest := none } }
      else d))
    ∧ exec (.scrRateWrite dt y v) s = .next (s.withDev { d with ar := { ar with rateSh := min (v.toNat % 8192) ar.limit } })
    ∧ exec (.eccTestWrite dt y v) s = .next (s.withDev
        (if d.pw.mode = .service then { d with ar := { ar with rawEn := v.toNat.testBit 0 } } else d))
    ∧ ∀ c op, (c = .rawRead dt y ∧ op = .read) ∨ (c = .rawWrite dt y ∧ op = .write)
        ∨ (c = .rawCheckWrite dt y ∧ op = .check) →
      let word := rawCode (wd ar.rawData) ar.rawChk
      (ar.rawEn = false → exec c s = .next (s.withDev { d with ar := { ar with rawResult := 2 } }))
      ∧ (ar.rawEn = true → d.rawAllowed ar.rawAddr = false →
        exec c s = .next (s.withDev { d with ar := { ar with rawResult := 1 } }))
      ∧ (ar.rawEn = true → d.rawAllowed ar.rawAddr = true →
        exec c s = .next (s.withDev { d with ar := { ar with rawOp := some (op, ar.rawAddr, word), rawResult := 0 } })))
  ∧ (∀ (s : State) (dt : Nat) (b : Fin 4) (op : RawOp) (a : Nat) (code fault : Code), s.timed dt →
    let d := s.after dt
    Memory.wf d.ar.mem = true → d.mayUse 6 b = true → d.ar.rawOp = some (op, a, code) → a / 524288 = b → d.inStripe a = false →
    d.bankDead a = false →
    ∃ t, exec (.scrubSlot dt b fault) s = .next t ∧ t.pending = s.pending ∧ t.dev.ar.rawOp = none
      ∧ (∀ x, x ≠ a → t.dev.rawGet x = d.rawGet x)
      ∧ (match op with
        | .read => t.dev.rawGet a = d.rawGet a ∧ t.dev.ar.rawData = (codeData (d.rawGet a)).toNat
            ∧ t.dev.ar.rawChk = codeCheck (d.rawGet a)
        | .write => t.dev.rawGet a = code
        | .check => t.dev.rawGet a = rawCode (codeData (d.rawGet a)) (codeCheck code)))

/-! ### Semaphores and mailboxes -/

/-- R245, R247: the three outcomes of a claim of a local semaphore; the whole next state. -/
def Obligations.SemLocalClaim : Prop :=
  ∀ (s : State) (dt : Nat) (y : Party) (n : Fin 64), s.acts dt y →
    let d := s.after dt
    ((d.semL n).owner = none →
      exec (.semLocalClaim dt y n) s
        = .next (s.withDev ((s.after dt).setSemL n ({ d.semL n with owner := some y }.setWant y false))))
    ∧ (∀ o, (d.semL n).owner = some o → o ≠ y →
      exec (.semLocalClaim dt y n) s = .next (s.withDev ((s.after dt).setSemL n ((d.semL n).setWant y true))))
    ∧ ((d.semL n).owner = some y → exec (.semLocalClaim dt y n) s = .next (s.withDev (s.after dt)))

/-- R246, R247: a release by the owner, and by anyone else. -/
def Obligations.SemLocalRelease : Prop :=
  ∀ (s : State) (dt : Nat) (y : Party) (n : Fin 64), s.acts dt y →
    let d := s.after dt
    ((d.semL n).owner = some y →
      let free := (s.after dt).setSemL n { owner := none, broken := false }
      let a := if (d.semL n).wantA then free.fire 12 else free
      let b := if (d.semL n).wantB then a.fire 13 else a
      exec (.semLocalRelease dt y n) s
        = .next (s.withDev (if (d.semL n).wantP then { b with pl := { b.pl with woken := true } } else b)))
    ∧ ((d.semL n).owner ≠ some y →
      exec (.semLocalRelease dt y n) s
        = .next (s.withDev { s.after dt with cm := { d.cm with badRel := min 16383 (d.cm.badRel + 1) } }))

/-- R256, R257, R260, R261, R265: the three outcomes of a POST by the channel's sender. R258, R263: a TAKE by the channel's receiver. -/
def Obligations.MailboxPostAndTake : Prop :=
  (∀ (s : State) (dt : Nat) (y : Party) (k : Fin 6) (v : Word), s.acts dt y → y = chanSender k →
    let d := s.after dt
    let c := d.chan k
    let len := v.toNat % 32
    (1 ≤ len → len ≤ 16 → c.words + len ≤ 16 →
      let posted := (s.after dt).modChan k fun c =>
        { c with queue := c.queue ++ [c.stage.take len], posted := c.posted ++ [d.now], last := 1, free := c.free - len,
                 timer := if c.confirm = false ∧ c.acktoEff ≠ 0 then some d.ck.tick else c.timer }
      exec (.mbxPost dt y k v) s
        = .next (s.withDev (if (posted.chan k).notify = 0 then posted else posted.tellParty (chanReceiver k) 4)))
    ∧ (1 ≤ len → len ≤ 16 → 16 < c.words + len →
      exec (.mbxPost dt y k v) s = .next (s.withDev ((s.after dt).modChan k fun c =>
        { c with refused := min 16383 (c.refused + 1), last := 2 })))
    ∧ (len = 0 ∨ 16 < len →
      exec (.mbxPost dt y k v) s = .next (s.withDev ((s.after dt).modChan k fun c =>
        { c with refused := min 16383 (c.refused + 1), last := 3 }))))
  ∧ (∀ (s : State) (dt : Nat) (y : Party) (k : Fin 6), s.acts dt y → y = chanReceiver k →
    let d := s.after dt
    (∀ m ms, (d.chan k).queue = m :: ms →
      let taken := (s.after dt).modChan k fun c =>
        { c with queue := ms, posted := c.posted.tail, answered := c.answered - 1, free := c.free + m.length }
      exec (.mbxTake dt y k) s
        = .next (s.withDev (if (d.chan k).confirm = true ∧ ms = [] then taken.tellParty (chanSender k) 6 else taken)))
    ∧ ((d.chan k).queue = [] → exec (.mbxTake dt y k) s = .next (s.withDev (s.after dt))))

/-- R255, R264, R265, R268: MBX_ACK_WRITE, MBX_CLR_ACK, MBX_ACK_TIMEOUT, and a third party's writes. R260, R267, R268, R270: MBX_CLR_STALE, MBX_CLR_SNDRST and MBX_CFG_WRITE by a channel's receiver. That the value written for
the sender's confirm bit must be the one it holds for no misuse to count is the model's reading (log entry 23). -/
def Obligations.MailboxCodesAndFlags : Prop :=
  (∀ (s : State) (dt : Nat) (y : Party) (k : Fin 6) (code : Word),
    let d := s.after dt
    (s.acts dt y → y = chanReceiver k → code.toNat < 0x3FF0 →
      exec (.mbxAckWrite dt y k code) s = .next (s.withDev ((s.after dt).modChan k fun c =>
        { c with ack := code, ackValid := true, timer := none, ackStale := c.ackStale || c.armed, armed := false, codeAt := d.now })))
    ∧ (s.acts dt y → y = chanReceiver k → 0x3FF0 ≤ code.toNat →
      exec (.mbxAckWrite dt y k code) s = .next (s.withDev ((s.after dt).modChan k fun c =>
        { c with misuse := min 16383 (c.misuse + 1) })))
    ∧ (s.acts dt y → y = chanSender k →
      exec (.mbxClrAck dt y k) s = .next (s.withDev ((s.after dt).modChan k fun c =>
        { c with ackValid := false, ackStale := false })))
    ∧ (∀ t, s.timed dt → (d.chan k).timer = some t → (d.chan k).acktoEff ≠ 0 →
      d.ck.tick = t + (d.chan k).acktoEff → (∀ j : Fin 6, j < k → (d.chan j).expires d.ck.tick = false) →
      d.mayUse 8 3 = true →
      exec (.mbxAckTimeout dt k) s = .next (s.withDev (((d.useBank 3).modChan k fun c =>
        { c with ack := 0x3FF0#14, ackValid := true, timer := none, timeouts := min 16383 (c.timeouts + 1) }).tellParty
          (chanSender k) 8)))
    ∧ (d.mayUse 8 3 = false ∨ (d.chan k).expires d.ck.tick = false → s.dev.pw.powered = true →
      exec (.mbxAckTimeout dt k) s = .next (s.withDev d))
    ∧ (∀ v, s.acts dt y → y ≠ chanSender k → y ≠ chanReceiver k →
      ∀ c ∈ [Instr.mbxPost dt y k v, .mbxTake dt y k, .mbxAckWrite dt y k v, .mbxClrStale dt y k, .mbxClrSndrst dt y k,
        .mbxClrAck dt y k, .mbxCfgWrite dt y k v],
      exec c s = .next (s.withDev (d.modChan k fun c => { c with misuse := min 16383 (c.misuse + 1) }))))
  ∧ (∀ (s : State) (dt : Nat) (y : Party) (k : Fin 6) (v : Word), s.acts dt y → y = chanReceiver k →
    let d := s.after dt
    exec (.mbxClrStale dt y k) s = .next (s.withDev ((s.after dt).modChan k fun c => { c with stale := false }))
    ∧ exec (.mbxClrSndrst dt y k) s = .next (s.withDev ((s.after dt).modChan k fun c => { c with sndrst := false }))
    ∧ (y ≠ .pilot → v.toNat % 4 ≠ 3 → v.toNat.testBit 2 = (d.chan k).confirm →
      let set := (s.after dt).modChan k fun c => { c with notify := v.toNat % 4 }
      exec (.mbxCfgWrite dt y k v) s = .next (s.withDev
        (if (d.chan k).notify = 0 ∧ v.toNat % 4 ≠ 0 ∧ (d.chan k).queue ≠ [] then set.tellParty y 4 else set))))

/-! ### Ring semaphores -/

/-- R250, R251, R399, R417: a release of a ring semaphore at a node, without a ring, and at the anchor. -/
def Obligations.SemRingRelease : Prop :=
  ∀ (s : State) (dt : Nat) (y : Party) (n : Fin 16), s.acts dt y →
    let d := s.after dt
    let freed := d.setSemR n {}
    let words := [wd (n + 16 * y.code), 0#14, 0#14, 0#14]
    (d.ringOwns y n = true → d.cf.ringNodes = 0 → exec (.semRingRelease dt y n) s = .next (s.withDev freed))
    ∧ (d.ringOwns y n = true → d.cf.ringNodes ≠ 0 → d.isAnchor = false → d.pathTo 0 = false →
      exec (.semRingRelease dt y n) s
        = .next (s.withDev { freed with rg := { d.rg with semHeld := d.rg.semHeld ++ [words] } }))
    ∧ (d.ringOwns y n = true → d.cf.ringNodes ≠ 0 → d.isAnchor = false → d.pathTo 0 = true →
      (d.originates = true → exec (.semRingRelease dt y n) s = .next (s.withDev (freed.queueLocal d.outDown
        { typ := .semrel, src := d.rg.nodeId, dst := 0, hops := 0, bcast := false, reply := false,
          payload := words })))
      ∧ (d.originates = false → exec (.semRingRelease dt y n) s = .next (s.withDev freed)))
    ∧ (d.ringOwns y n = true → d.isAnchor = true → n < d.cm.semR.length →
      ∃ t, exec (.semRingRelease dt y n) s = .next t ∧ t.pending = s.pending ∧ t.dev.semR n = {}
        ∧ ∀ k, k ≠ n.val → t.dev.semR k = d.semR k)
    ∧ (d.ringOwns y n = false → exec (.semRingRelease dt y n) s
        = .next (s.withDev { d with cm := { d.cm with badRel := min 16383 (d.cm.badRel + 1) } }))

/-- R249, R251, R399, R416: a claim of a ring semaphore at a node, without a ring, and at the anchor. R249: the end of a claim that nothing has
answered, 2 ticks after it. -/
def Obligations.SemRingClaim : Prop :=
  (∀ (s : State) (dt : Nat) (y : Party) (n : Fin 16), s.acts dt y →
    let d := s.after dt
    let pending := { d with cm := { d.cm with claims := d.cm.claims
                                      ++ [{ sem := n, party := y, tick := d.ck.tick, slot := d.ck.slot }] } }
    ((d.semR n).party ≠ none ∨ d.claimOf n ≠ none → exec (.semRingClaim dt y n) s = .next (s.withDev d))
    ∧ ((d.semR n).party = none → d.claimOf n = none →
      (d.cf.ringNodes = 0 → exec (.semRingClaim dt y n) s = .next (s.withDev pending))
      ∧ (d.cf.ringNodes ≠ 0 → d.isAnchor = false → d.originates = false →
        exec (.semRingClaim dt y n) s = .next (s.withDev pending))
      ∧ (d.isAnchor = false → d.originates = true →
        exec (.semRingClaim dt y n) s = .next (s.withDev (pending.queueLocal d.outDown
          { typ := .semclaim, src := d.rg.nodeId, dst := 0, hops := 0, bcast := false, reply := false,
            payload := wd (n + 16 * y.code) :: toWords (d.ck.tick % 2 ^ 28) 2 ++ [0#14] })))
      ∧ (d.isAnchor = true → n < d.cm.semR.length →
        ∃ t, exec (.semRingClaim dt y n) s = .next t ∧ t.pending = s.pending ∧ t.dev.claimOf n = none
          ∧ t.dev.semR n = { d.semR n with node := d.rg.nodeId, party := some y }
          ∧ (∀ k, k ≠ n.val → t.dev.semR k = d.semR k))))
  ∧ (∀ (s : State) (dt : Nat) (n : Fin 16), s.dev.pw.powered = true →
    let d := s.after dt
    (∀ c, d.claimOf n = some c →
      (c.tick + 2 < d.ck.tick ∨ (c.tick + 2 = d.ck.tick ∧ c.slot ≤ d.ck.slot) →
        exec (.ringClaimTimeout dt n) s = .next (s.withDev { d with
          cm := { d.cm with claims := d.cm.claims.filter fun x => x.sem != n,
                            ringTo := min 16383 (d.cm.ringTo + 1) } }))
      ∧ (d.ck.tick < c.tick + 2 ∨ (d.ck.tick = c.tick + 2 ∧ d.ck.slot < c.slot) →
        exec (.ringClaimTimeout dt n) s = .next (s.withDev d)))
    ∧ (d.claimOf n = none → exec (.ringClaimTimeout dt n) s = .next (s.withDev d)))

/-! ### Events -/

/-- R298, R306, R307: EVC_CLAIM and EVC_COMPLETE; the whole next state. -/
def Obligations.EventClaims : Prop :=
  ∀ (s : State) (dt : Nat) (y : Party) (n : Fin 64) (v : Word), s.acts dt y →
    let d := s.after dt
    let x := d.src n
    let target := x.targets.testBit (match y with | .portA => 0 | .portB => 1 | .pilot => 2)
    (target = true → x.pend = true → x.active = false → exec (.evcClaim dt y n) s
      = .next (s.withDev ((d.modSrc n fun x => { x with active := true, owner := some y, pend := false }).modParty y
          fun z => { z with back := wd n })))
    ∧ (target = false ∨ x.pend = false ∨ x.active = true → exec (.evcClaim dt y n) s
      = .next (s.withDev ({ d with ev := { d.ev with spur := min 16383 (d.ev.spur + 1) } }.modParty y
          fun z => { z with back := 0x3FFF#14 })))
    ∧ (let c := d.src v.toNat
      let free := d.modSrc v.toNat fun x => { x with active := false, owner := none }
      (v.toNat < 55 → c.active = true → c.owner = some y → exec (.evcComplete dt y v) s
        = .next (s.withDev (if c.pend = true ∧ c.mask = false then free.post v.toNat else free)))
      ∧ (55 ≤ v.toNat ∨ c.active = false ∨ c.owner ≠ some y → exec (.evcComplete dt y v) s
        = .next (s.withDev { d with ev := { d.ev with badComp := min 16383 (d.ev.badComp + 1) } })))

/-- R298, R310: EVC_PEND_WRITE. R300 to R303, R305: EVENT_RECORD_WRITE in a slot that R265 and R301 leave to records, and in any
other; EVC_QRD_WRITE. -/
def Obligations.EventPendingAndRecords : Prop :=
  (∀ (s : State) (dt : Nat) (y : Party) (w : Fin 5) (v : Word), s.acts dt y →
    let d := s.after dt
    ∃ t, exec (.evcPendWrite dt y w v) s = .next t ∧ t.pending = s.pending
      ∧ (∀ n, n < 64 → n < d.ev.srcs.length → n / 14 = w →
        t.dev.src n = { d.src n with pend := v.toNat.testBit (n % 14) })
      ∧ (∀ n : Nat, n / 14 ≠ w → t.dev.src n = d.src n)
      ∧ (v = 0#14 → t.dev.ev.recs = d.ev.recs)
      ∧ (∀ r ∈ t.dev.ev.recs, r ∈ d.ev.recs ∨ (r.written = 0 ∧ r.source / 14 = w ∧ r.tick = d.ck.tick
        ∧ r.at' = d.now ∧ v.toNat.testBit (r.source % 14) = true))
      ∧ t.dev = { d with ev := { d.ev with srcs := t.dev.ev.srcs, recs := t.dev.ev.recs } })
  ∧ (∀ (s : State) (dt : Nat),
    let d := s.after dt
    (s.timed dt → d.mayUse 8 3 = false ∨ d.ev.recs = [] ∨ (∃ k : Fin 6, (d.chan k).expires d.ck.tick = true)
        ∨ (∃ r rs, d.ev.recs = r :: rs ∧ d.now ≤ r.at') →
      exec (.eventRecordWrite dt) s = .next (s.withDev d))
    ∧ (∀ r rs, s.timed dt → Memory.wf d.ar.mem = true → d.ev.recs = r :: rs → d.mayUse 8 3 = true →
        (∀ k : Fin 6, (d.chan k).expires d.ck.tick = false) → r.at' < d.now →
      let q := d.evq r.target
      let base := queueBase r.target + 4 * q.wr
      ∃ t, exec (.eventRecordWrite dt) s = .next t ∧ t.pending = s.pending
        ∧ (r.written = 0 → 1024 ≤ q.cnt → t.dev.ev.recs = rs ∧ t.dev.sameMemory d
          ∧ t.dev.evq r.target = { q with seq := (q.seq + 1) % 256, ovf := min 16383 (q.ovf + 1) })
        ∧ (∀ i, r.written = i → i < 3 → (i = 0 → q.cnt < 1024) → d.writeHeld (base + i + 1) = false →
          t.dev.ev.recs = { r with written := i + 1 } :: rs
          ∧ t.dev.rawGet (base + i + 1) = encodeWord (wordOf r.tick i)
          ∧ (∀ b, b ≠ base + i + 1 → t.dev.rawGet b = d.rawGet b))
        ∧ (3 ≤ r.written → d.writeHeld base = false → t.dev.ev.recs = rs
          ∧ t.dev.rawGet base = encodeWord (wd (r.source + 64 * q.seq))
          ∧ (∀ b, b ≠ base → t.dev.rawGet b = d.rawGet b)
          ∧ t.dev.evq r.target
            = { q with wr := (q.wr + 1) % 1024, cnt := q.cnt + 1, seq := (q.seq + 1) % 256, free := q.free - 1 }))
    ∧ (∀ y z v, s.acts dt y →
      let q := d.evq z
      let n := (v.toNat % 1024 + 1024 - q.rd) % 1024
      (y = z → n ≤ q.cnt → exec (.evcQrdWrite dt y z v) s
        = .next (s.withDev ((d.modEvq z fun q =>
            { q with rd := v.toNat % 1024, cnt := q.cnt - n, free := q.free + n }).updInt)))
      ∧ (y ≠ z ∨ q.cnt < n → exec (.evcQrdWrite dt y z v) s = .next (s.withDev d))))

/-! ### Pilot commands -/

/-- R264, R273, R276, R279: the shared operation that ends a command, and its reply. -/
def Obligations.CommandEnds : Prop :=
  ∀ (d : Dev) (p : Port) (code : Nat) (reply : List Word), d.cm.chans.length = 6 →
    let e := d.finish p code
    e.cmd p = none ∧ e.cmd p.other = d.cmd p.other
    ∧ (e.chan (pilotChan p)).ack = wd code ∧ (e.chan (pilotChan p)).ackValid = true
    ∧ (e.chan (pilotChan p)).timer = none ∧ (e.chan (pilotChan p)).queue = (d.chan (pilotChan p)).queue
    ∧ (e.chan (returnChan p)).reserved = (d.chan (returnChan p)).reserved - ((d.cmd p).map Cmd.reserved).getD 0
    ∧ (∀ k, k ≠ pilotChan p → k ≠ returnChan p → e.chan k = d.chan k)
    ∧ e = { d with cm := e.cm, pl := e.pl }
    ∧ (reply ≠ [] → (d.chan (returnChan p)).words + reply.length ≤ 16 →
      ((d.finishWith p reply code).chan (returnChan p)).queue = (d.chan (returnChan p)).queue ++ [reply]
      ∧ ((d.finishWith p reply code).chan (pilotChan p)).ack = wd code ∧ (d.finishWith p reply code).cmd p = none)

/-- R282, R374: TALLY_INC, TALLY_READ, TALLY_ATTEST. That READ and ATTEST of an undeclared tally answer 0x0401 is the model's
reading (log entry 38). R377: TALLY_RECOVER and TALLY_RECOVER_WAIT_END. -/
def Obligations.TallyCommands : Prop :=
  (∀ (s : State) (dt : Nat) (p : Port) (c : Cmd),
    let d := s.after dt
    let x := d.tally (c.word 1)
    let waiting := (x.incs.map fun i => i.2).sum
    (s.took dt p 0x0001 c →
      (x.declared = true → x.broken = false → x.allows p = true → x.value + waiting + c.word 2 < 2 ^ 56 →
        exec (.tallyInc dt p) s = .next (s.withDev ((d.modTally (c.word 1) fun x =>
          { x with incs := x.incs ++ [(p, c.word 2)] }).setStarted p)))
      ∧ (x.declared = false ∨ x.broken = true ∨ x.allows p = false →
        exec (.tallyInc dt p) s = .next (s.withDev (d.finish p 0x0401)))
      ∧ (x.declared = true → x.broken = false → x.allows p = true → 2 ^ 56 ≤ x.value + waiting + c.word 2 →
        exec (.tallyInc dt p) s = .next (s.withDev (d.finish p 0x0403))))
    ∧ (s.took dt p 0x0002 c →
      (x.declared = true → x.broken = false →
        exec (.tallyRead dt p) s = .next (s.withDev (d.finishWith p (0x0002#14 :: toWords c.tallyAt 4) 0)))
      ∧ (x.declared = false ∨ x.broken = true → exec (.tallyRead dt p) s = .next (s.withDev (d.finish p 0x0401))))
    ∧ (s.took dt p 0x0003 c →
      (x.declared = true → x.broken = false → d.destOk p (c.value 6 2) 55 = true →
        let job := SealJob.attest p (d.attestWords (c.word 1) c.tallyAt c.acceptTick (c.value 2 4)) (c.value 6 2)
        ∃ t, exec (.tallyAttest dt p) s = .next t ∧ t.pending = s.pending
          ∧ (t.dev.cmd p).map Cmd.phase = some .started
          ∧ (t.dev.ks.active = some job ∨ job ∈ t.dev.ks.attests))
      ∧ (x.declared = false ∨ x.broken = true → exec (.tallyAttest dt p) s = .next (s.withDev (d.finish p 0x0401)))
      ∧ (x.declared = true → x.broken = false → d.destOk p (c.value 6 2) 55 = false →
        exec (.tallyAttest dt p) s = .next (s.withDev (d.finish p 0x0002)))))
  ∧ (∀ (s : State) (dt : Nat) (p : Port),
    let d := s.after dt
    let ended := fun r : Recover => decide (r.port = p) && decide (r.tick + 16 ≤ d.ck.tick)
    (∀ c, s.took dt p 0x0004 c →
      ((d.tally (c.word 1)).declared = false → exec (.tallyRecover dt p) s = .next (s.withDev (d.finish p 0x0401)))
      ∧ ((d.tally (c.word 1)).declared = true → d.team = [] ∨ d.originates = false →
        exec (.tallyRecover dt p) s = .next (s.withDev (d.finish p 0x0411)))
      ∧ ((d.tally (c.word 1)).declared = true → d.team ≠ [] → d.originates = true →
        ∃ t, exec (.tallyRecover dt p) s = .next t ∧ t.pending = s.pending
          ∧ t.dev.ks = { d.ks with recover := d.ks.recover ++ [{ port := p, tally := c.word 1, tick := c.acceptTick }] }
          ∧ (t.dev.cmd p).map Cmd.phase = some .started
          ∧ (t.dev.link d.outDown).locals = (d.link d.outDown).locals ++ d.team.map fun n =>
            { typ := .query, src := d.rg.nodeId, dst := n, hops := 0, bcast := false, reply := false,
              payload := [1#14, wd (c.word 1), 0#14, 0#14] }))
    ∧ (s.dev.pw.powered = true → d.pilotRuns = false ∨ d.ks.recover.find? ended = none →
      exec (.tallyRecoverWaitEnd dt p) s = .next (s.withDev d))
    ∧ (∀ r, s.dev.pw.powered = true → d.pilotRuns = true → d.ks.recover.find? ended = some r →
      let rest := d.ks.recover.filter fun y => y.port != p
      let e := { d with ks := { d.ks with recover := rest } }
      match agreedValue d.sealedHold.rope (r.replicas.filter (d.replicaFits r.tally)) with
      | none => exec (.tallyRecoverWaitEnd dt p) s = .next (s.withDev (e.finish p 0x0411))
      | some v =>
        if (d.tally r.tally).broken = false ∧ v ≤ (d.tally r.tally).value then
          exec (.tallyRecoverWaitEnd dt p) s = .next (s.withDev (e.finish p 0x0412))
        else ∃ t, exec (.tallyRecoverWaitEnd dt p) s = .next t ∧ t.pending = s.pending ∧ t.dev.cmd p = none
          ∧ t.dev.ks.recover = rest ∧ (r.tally < d.ks.tallies.length →
            (t.dev.tally r.tally).value = v ∧ (t.dev.tally r.tally).broken = false)))

/-- R274, R275: COMMAND_GATE. That the played RECORD_FREEZE of a replay passes the mode check is the model's reading (log entry 40);
the clauses leave REPLAY out. That a message which found no slot of the engine waits for one is the model's reading too (log entry
106); the clauses name the slots. R276, R476: COMMAND_ACCEPT. -/
def Obligations.CommandGateAndAcceptance : Prop :=
  (∀ (s : State) (dt : Nat) (p : Port) (ws : List Word) (rest : List (List Word)), s.timed dt →
    let d := s.after dt
    let k := pilotChan p
    (d.chan k).queue = ws :: rest →
    let op := (ws.getD 0 0#14).toNat
    let looks := d.pl.locked = false ∧ d.cmd p = none ∧ (d.chan k).refusedAt ≠ some d.now
      ∧ ((d.chan k).nextAt = d.now ∨ d.ownerAt 3 d.ck.slot = 8)
    let refused := fun code : Nat =>
      let e := ((d.putAck k (wd code)).mbxTake k).modChan k fun c => { c with refusedAt := some d.now }
      s.withDev { e with pl := { e.pl with gateRef := min 16383 (e.pl.gateRef + 1) } }
    (¬ looks → exec (.commandGate dt p) s = .next (s.withDev d))
    ∧ (looks → cmdLength op ((ws.getD 2 0#14).toNat % 16) = none → exec (.commandGate dt p) s = .next (refused 0x3FF1))
    ∧ (∀ n, looks → cmdLength op ((ws.getD 2 0#14).toNat % 16) = some n → ws.length ≠ n →
      exec (.commandGate dt p) s = .next (refused 0x3FF2))
    ∧ (looks → op ≠ 0x0040 → cmdLength op ((ws.getD 2 0#14).toNat % 16) = some ws.length → d.pw.mode ≠ .replay →
      d.pw.mode ∉ cmdModes op → exec (.commandGate dt p) s = .next (refused 0x3FF3))
    ∧ (looks → d.gateCode p ws = 0 →
      let e := d.modChan (returnChan p) fun c => { c with reserved := c.reserved + replyOf ws }
      let c : Cmd := { words := ws, phase := .admitted, nextAt := (d.chan k).nextAt, acceptAt := 0, acceptTick := 0,
                       reserved := replyOf ws }
      exec (.commandGate dt p) s = .next (s.withDev (e.setCmd p (some c)).wakePilot)))
  ∧ (∀ (s : State) (dt : Nat) (p : Port) (c : Cmd), s.dev.pw.powered = true →
    let d := s.after dt
    d.pilotRuns = true → d.cmd p = some c → c.phase = .admitted →
    let e := d.mbxTake (pilotChan p)
    let base := { c with phase := .accepted, acceptAt := d.now, acceptTick := d.ck.tick,
                         tallyAt := (d.tally (c.word 1)).value }
    let taken := e.setCmd p (some (if c.op = 0x0071 then e.exportBegin base else base))
    exec (.commandAccept dt p) s = .next (s.withDev (if c.argsOk = true then taken else taken.finish p 0x0001)))

/-- R281, R282, R364, R367: RECORD_FREEZE (outside REPLAY), RECORD_LIST, RECORD_READ_CERT, and the delivery of a
result. R205, R206, R214, R216: RETIRE_PAGE, RETIRE_BANK and SCRUB_RANGE; of several codes of RETIRE_PAGE the lowest answers, the
model's choice (log entry 102), and RECORD_LIST judges its sequence before its destination, the model's reading (log entry 77). -/
def Obligations.RecordAndScrubCommands : Prop :=
  (∀ (s : State) (dt : Nat) (p : Port) (c : Cmd),
    let d := s.after dt
    (s.took dt p 0x0010 c → d.pw.mode ≠ .hold → d.pw.mode ≠ .replay → exec (.recordFreeze dt p) s
      = .next (s.withDev ({ d with pl := { d.pl with freezeReq := d.pl.freezeReq ++ [p] } }.setStarted p)))
    ∧ (s.took dt p 0x0010 c → d.pw.mode = .hold →
      exec (.recordFreeze dt p) s = .next (s.withDev ((d.countExtra 1).finish p 0x0501)))
    ∧ (s.took dt p 0x0011 c →
      let is := d.listed (c.value 1 2)
      ((is.head?.map fun i => (d.slotRec i).seq) ≠ some (c.value 1 2) →
        exec (.recordList dt p) s = .next (s.withDev (d.finish p 0x0502)))
      ∧ ((is.head?.map fun i => (d.slotRec i).seq) = some (c.value 1 2) →
        exec (.recordList dt p) s = .next (s.withDev (d.deliver p 0x0011 (c.value 3 2) (c.value 5 2)
          (is.flatMap fun i => twoWords (d.slotRec i).seq ++ [wd i, (d.slotRec i).stateWord])))))
    ∧ (s.took dt p 0x0012 c →
      exec (.recordReadCert dt p) s = .next (s.withDev (d.deliver p 0x0012 (c.value 1 2) (c.value 3 2) certWords)))
    ∧ (∀ (e : Dev) (op a cap : Nat) (ws : List Word),
      (e.destOk p a cap = false → e.deliver p op a cap ws = e.finish p 0x0002)
      ∧ (e.destOk p a cap = true → cap < ws.length →
        e.deliver p op a cap ws = e.finishWith p (wd op :: twoWords ws.length) 0x0003)
      ∧ (e.destOk p a cap = true → ws.length ≤ cap → Memory.wf e.ar.mem = true →
        (∀ i, i < ws.length → e.writeHeld (a + i) = false) →
        (∀ i w, ws[i]? = some w → (e.deliver p op a cap ws).rawGet (a + i) = encodeWord w)
        ∧ (∀ b, b < a ∨ a + ws.length ≤ b → (e.deliver p op a cap ws).rawGet b = e.rawGet b))))
  ∧ (∀ (s : State) (dt : Nat) (p : Port) (c : Cmd),
    let d := s.after dt
    let ar := d.ar
    (s.took dt p 0x0020 c →
      let page := c.word 1
      let array := page < 1984 ∨ (2000 ≤ page ∧ page < 2012)
      let free := ar.spares.getD (page / 512) 0
      (¬ array ∨ page / 512 ∈ ar.bankRet → exec (.retirePage dt p) s = .next (s.withDev (d.finish p 0x0201)))
      ∧ (array → page / 512 ∉ ar.bankRet → free = 0 → exec (.retirePage dt p) s = .next (s.withDev (d.finish p 0x0202)))
      ∧ (array → page / 512 ∉ ar.bankRet → free ≠ 0 → ar.retire ≠ none →
        exec (.retirePage dt p) s = .next (s.withDev (d.finish p 0x0203)))
      ∧ (array → page / 512 ∉ ar.bankRet → free ≠ 0 → ar.retire = none →
        let job : RetireJob := { port := p, page := page, spare := 8 * (page / 512) + (8 - free) }
        let taken := { ar with retire := some job, retState := 1, retPage := page,
                               spares := ar.spares.set (page / 512) (free - 1) }
        exec (.retirePage dt p) s = .next (s.withDev ({ d with ar := taken }.setStarted p))))
    ∧ (s.took dt p 0x0021 c →
      let job : RetireJob := { port := p, page := c.word 1, spare := 0, bankJob := true }
      let begun := { d with ar := { ar with retire := some job, retState := 2 } }.setStarted p
      (2 < c.word 1 ∨ c.word 1 ∈ ar.bankRet ∨ c.word 1 ∈ ar.bankRetPending →
        exec (.retireBank dt p) s = .next (s.withDev (d.finish p 0x0201)))
      ∧ (c.word 1 ≤ 2 → c.word 1 ∉ ar.bankRet → c.word 1 ∉ ar.bankRetPending → ar.retire = none →
        exec (.retireBank dt p) s
          = .next (s.withDev (if d.kl.commit = none ∧ d.storing = false then begun.startCommit false d.now else begun)))
      ∧ (c.word 1 ≤ 2 → c.word 1 ∉ ar.bankRet → c.word 1 ∉ ar.bankRetPending → ar.retire ≠ none →
        exec (.retireBank dt p) s = .next (s.withDev (d.finish p 0x0203))))
    ∧ (s.took dt p 0x0022 c →
      let first := c.value 1 2
      let last := c.value 3 2
      let good := rangeAddr first = true ∧ rangeAddr last = true ∧ first ≤ last
      (¬ good → exec (.scrubRange dt p) s = .next (s.withDev (d.finish p 0x0204)))
      ∧ (good → ar.ranges.length < 2 →
        let pass : RangePass := { port := p, first := first, last := last, pos := first }
        exec (.scrubRange dt p) s
          = .next (s.withDev ({ d with ar := { ar with ranges := ar.ranges ++ [pass] } }.setStarted p)))))

/-! ### Updates, peers, service, logbook -/

/-- R118 to R121: the five commands of an image update, each in every case. The order of two codes that both apply, and that a failed
erase closes the update, are the model's choices (log entry 95); so are the code of another port's command whose update BEGIN abandons
(log entry 33), which check of COMMIT is reported first, and that a failure of the flash answers 0x0105 to DATA and COMMIT (log entry
34). -/
def Obligations.ConfigUpdate : Prop :=
  ∀ (s : State) (dt : Nat) (p : Port) (c : Cmd) (ok : Bool) (back : List Byte),
    let d := s.after dt
    let cf := d.cf
    (s.took dt p 0x0030 c →
      let slot : CopyId := if cf.copySel = 0 then .copyB else .copyA
      (cf.sfdpOk = false → exec (.configUpdateBegin dt p) s = .next (s.withDev (d.finish p 0x0105)))
      ∧ (cf.sfdpOk = true → cf.copySel ≠ 2 → cf.seq = 0xFFFFFFFE →
        exec (.configUpdateBegin dt p) s = .next (s.withDev (d.finish p 0x0104)))
      ∧ (cf.sfdpOk = true → cf.copySel = 2 ∨ cf.seq ≠ 0xFFFFFFFE →
        let closed := { d with cf := { cf with updState := 3, updErasing := false, updCommitting := false } }
        let e := if d.updateOpen p.other = true then closed.endUpdateCmd p.other 0x0101 else d
        exec (.configUpdateBegin dt p) s = .next (s.withDev ({ e with
          cf := { cf with updState := 1, updTarget := copyCode slot, updOwner := p, updErasing := true, updSent := 0,
                          updHead := [], updCommitting := false, flash := .erase slot } }.setStarted p))))
    ∧ (s.dev.pw.powered = true → cf.updErasing = true → cf.updState = 1 → exec (.flashEraseComplete dt ok) s
        = .next (s.withDev ({ d with cf := { cf with updErasing := false, updState := if ok then 1 else 3 } }.finishIf
            cf.updOwner 0x0030 (if ok then 0 else 0x0105))))
    ∧ (s.dev.pw.powered = true → cf.updErasing = false ∨ cf.updState ≠ 1 →
      exec (.flashEraseComplete dt ok) s = .next (s.withDev d))
    ∧ (s.took dt p 0x0031 c →
      let off := c.value 1 2 % 524288
      let n := c.word 3
      (d.updateOpen p = false → exec (.configUpdateData dt p ok) s = .next (s.withDev (d.finish p 0x0101)))
      ∧ (d.updateOpen p = true → off ≠ cf.updSent ∨ n = 0 ∨ 21 < n →
        exec (.configUpdateData dt p ok) s = .next (s.withDev (d.finish p 0x0102)))
      ∧ (d.updateOpen p = true → off = cf.updSent → 1 ≤ n → n ≤ 21 → 524288 < off + n →
        exec (.configUpdateData dt p ok) s = .next (s.withDev (d.finish p 0x0103)))
      ∧ (d.updateOpen p = true → off = cf.updSent → 1 ≤ n → n ≤ 21 → off + n ≤ 524288 →
        let sent := (unpackGroups 3 (c.words.drop 4)).take n
        let head := (cf.updHead ++ sent).take 16
        let free := fun o : Nat => head.length < 16 ∨ o + 4 < hdrLen head ∨ hdrLen head ≤ o
        ∃ t bytes, exec (.configUpdateData dt p ok) s = .next t ∧ t.pending = s.pending
          ∧ t.dev.cf.flash = .program d.targetCopy bytes
          ∧ (∀ o b, (o, b) ∈ bytes ↔ off ≤ o ∧ sent[o - off]? = some b ∧ free o)
          ∧ t.dev.cmd p = none
          ∧ t.dev.cf.updSent = (if ok then off + n else cf.updSent)
          ∧ t.dev = { d with cf := t.dev.cf, cm := t.dev.cm, pl := t.dev.pl }))
    ∧ (s.took dt p 0x0032 c →
      (d.updateOpen p = false → exec (.configUpdateCommit dt p) s = .next (s.withDev (d.finish p 0x0101)))
      ∧ (d.updateOpen p = true → exec (.configUpdateCommit dt p) s
        = .next (s.withDev ({ d with cf := { cf with updCommitting := true } }.setStarted p))))
    ∧ (s.dev.pw.powered = true → cf.updCommitting = true → cf.updState = 1 →
      let r := copyReason back true
      let shut := { cf with updCommitting := false, updState := 3 }
      let ends := fun cf code => s.withDev ({ d with cf := cf }.finishIf cf.updOwner 0x0032 code)
      exec (.updateCommitComplete dt back ok) s = .next (
        if r ≠ 0 then ends { shut with rsnU := r } 0x0106
        else if d.seqFits (hdrSeq back) = false then ends shut 0x0104
        else if ok = false then ends { shut with flash := .magic d.targetCopy } 0x0105
        else ends { shut with flash := .magic d.targetCopy, updState := 2 } 0))
    ∧ (s.dev.pw.powered = true → cf.updCommitting = false ∨ cf.updState ≠ 1 →
      exec (.updateCommitComplete dt back ok) s = .next (s.withDev d))

/-- R282, R283, R418: PEER_SEND, PEER_DELIV_TIMEOUT and PEER_INBOX_DELIVER. -/
def Obligations.PeerCommands : Prop :=
  ∀ (s : State) (dt : Nat) (p : Port) (c : Cmd),
    let d := s.after dt
    let node := c.word 1 % 1024
    (s.took dt p 0x0040 c →
      (d.cf.ringNodes = 0 ∨ d.rg.numbered = false ∨ node = d.rg.nodeId ∨ d.inRing node = false →
        exec (.peerSend dt p) s = .next (s.withDev (d.finish p 0x0601)))
      ∧ (d.cf.ringNodes ≠ 0 → d.rg.numbered = true → node ≠ d.rg.nodeId → d.inRing node = true →
        d.pathTo node = false → exec (.peerSend dt p) s = .next (s.withDev (d.finish p 0x0602)))
      ∧ (d.cf.ringNodes ≠ 0 → d.rg.numbered = true → node ≠ d.rg.nodeId → d.inRing node = true → d.pathTo node = true →
        let waits := { d with rg := { d.rg with peers := d.rg.peers ++ [(p, node, c.acceptTick)] } }.setStarted p
        let f : Frame :=
          { typ := .peer, src := d.rg.nodeId, dst := node, hops := 0, bcast := false, reply := false,
            payload := padWords ([wd (c.word 1 / 1024 % 2), wd (c.word 2)] ++ (c.words.drop 3).take (c.word 2)) }
        exec (.peerSend dt p) s
          = .next (s.withDev (if d.pw.mode.timetabled = true then waits.queueLocal d.outDown f else waits))))
    ∧ (s.dev.pw.powered = true → d.pilotRuns = true →
      (∀ x, d.rg.peers.find? (fun x => decide (x.1 = p) && decide (x.2.2 + 16 ≤ d.ck.tick)) = some x →
        exec (.peerDelivTimeout dt p) s = .next (s.withDev
          ({ d with rg := { d.rg with peers := d.rg.peers.filter fun y => y != x } }.finishIf p 0x0040 0x0602)))
      ∧ ((∀ x ∈ d.rg.peers, x.1 = p → d.ck.tick < x.2.2 + 16) →
        exec (.peerDelivTimeout dt p) s = .next (s.withDev d))
      ∧ (∀ m, d.pl.inbox.find? (fun m => m.port == p) = some m →
        (3 + m.words.length ≤ d.returnFree p →
          exec (.peerInboxDeliver dt p) s = .next (s.withDev
            ({ d with pl := { d.pl with inbox := d.pl.inbox.erase m } }.pilotPost p
              ([0x0041#14, wd m.src, wd m.words.length] ++ m.words))))
        ∧ (d.returnFree p < 3 + m.words.length →
          exec (.peerInboxDeliver dt p) s = .next (s.withDev d)))
      ∧ (d.pl.inbox.find? (fun m => m.port == p) = none → exec (.peerInboxDeliver dt p) s = .next (s.withDev d)))

/-- R282, R284 to R287: SLEEP_REQUEST, ENTER_SERVICE_STEP0, ENTER_SERVICE_STEP1, LEAVE_SERVICE. The nonce is a free value (log entry
4), so what is said of it holds of every value. -/
def Obligations.SleepAndService : Prop :=
  ∀ (s : State) (dt : Nat) (p : Port) (c : Cmd),
    let d := s.after dt
    let pl := d.pl
    (s.took dt p 0x0050 c →
      let asked := { d with pl := { pl with sleepReq := pl.sleepReq ++ [p] } }.setStarted p
      exec (.sleepRequest dt p) s = .next (s.withDev
        (if d.pw.mode = .hold then { asked with pw := { d.pw with sleepPending := true } } else asked)))
    ∧ (s.took dt p 0x0060 c → c.word 1 = 0 → d.lb.replay = none →
      ∃ t nonce, exec (.enterServiceStep0 dt p) s = .next t ∧ t.pending = s.pending
        ∧ nonce = (Config.random d.draws).toNat ∧ t.dev.pl.nonce = some nonce ∧ t.dev.draws = d.draws + 1
        ∧ t.dev.cmd p = none
        ∧ (d.cm.chans.length = 6 → (d.chan (returnChan p)).words + 5 ≤ 16 →
          (t.dev.chan (returnChan p)).queue = (d.chan (returnChan p)).queue ++ [0x0060#14 :: toWords nonce 4]))
    ∧ (s.took dt p 0x0060 c → c.word 1 = 1 →
      let used := { d with pl := { pl with nonce := none } }
      let a := c.value 2 2
      let words := (used.readRun 9 a 83).2
      let read := (used.readRun 9 a 83).1
      (pl.nonce = none → exec (.enterServiceStep1 dt p) s = .next (s.withDev (used.finish p 0x0301)))
      ∧ (pl.nonce ≠ none → 0x1E0000 < a + 83 →
        exec (.enterServiceStep1 dt p) s = .next (s.withDev (used.finish p 0x0302)))
      ∧ (pl.nonce ≠ none → a + 83 ≤ 0x1E0000 → (∃ r ∈ words, r.out = .uncorrectable) →
        exec (.enterServiceStep1 dt p) s = .next (s.withDev (read.finish p 0x0302)))
      ∧ (∀ n, pl.nonce = some n → a + 83 ≤ 0x1E0000 → (∀ r ∈ words, r.out ≠ .uncorrectable) →
        let code := tokenCode n (words.map Decoded.data)
        exec (.enterServiceStep1 dt p) s = .next (s.withDev (
          if code = 0 then { read with pl := { read.pl with svcReq := read.pl.svcReq ++ [(p, read.now)] } }.setStarted p
          else { read with pl := { read.pl with svcFail := min 16383 (read.pl.svcFail + 1) } }.finish p code))))
    ∧ (s.took dt p 0x0061 c → exec (.leaveService dt p) s = .next (s.withDev
      ({ d with pl := { pl with leaveReq := pl.leaveReq ++ [(p, c.acceptAt)] } }.setStarted p)))

/-- R471, R475 to R477: LOGBOOK_FREEZE, LOGBOOK_EXPORT, REPLAY_START, REPLAY_FETCH_COMPLETE, LOG_CAPTURE_WRITE, each in every case. -/
def Obligations.LogbookCommands : Prop :=
  ∀ (s : State) (dt : Nat) (p : Port) (c : Cmd),
    let d := s.after dt
    let lb := d.lb
    (s.took dt p 0x0070 c → exec (.logbookFreeze dt p) s
      = .next (s.withDev ({ d with lb := { lb with frzCmd := lb.frzCmd ++ [p] } }.setStarted p)))
    ∧ (s.took dt p 0x0071 c → exec (.logbookExport dt p) s
      = .next (s.withDev (if c.copy = [] then d.finish p 0x0701
          else d.deliver p 0x0071 (c.value 2 2) (c.value 4 2) c.copy)))
    ∧ (s.took dt p 0x0072 c →
      let a := c.value 1 2
      let n := c.value 3 2
      let words := (d.readRun 9 a 17).2.map Decoded.data
      let w := fun i => words.getD i 0#14
      let read := (d.readRun 9 a 17).1
      let good := w 0 = 0x1B0C#14 ∧ (w 1).toNat % 16 = 1 ∧ [w 10, w 11, w 12] = toWords d.cf.crc 3
        ∧ (w 16).toNat % 16 = 1
      (0x1E0000 < a + n ∨ n < 17 → exec (.replayStart dt p) s = .next (s.withDev (d.finish p 0x0702)))
      ∧ (a + n ≤ 0x1E0000 → 17 ≤ n → ¬ good → exec (.replayStart dt p) s = .next (s.withDev (read.finish p 0x0702)))
      ∧ (a + n ≤ 0x1E0000 → 17 ≤ n → good →
        let source : Replay := { addr := a + 16, left := n - 16 }
        exec (.replayStart dt p) s
          = .next (s.withDev ({ read with lb := { read.lb with rState := 1, replay := some source } }.setStarted p))))
    ∧ (s.dev.pw.powered = true →
      let ready := d.pw.mode = .service ∧ lb.rState = 1 ∧ lb.replay ≠ none ∧ lb.replayDue = false ∧ d.pilotRuns = true
        ∧ d.ck.slot + 1 = d.ck.curLen
      let e := d.fetchReads true
      (ready → exec (.replayFetchComplete dt) s
        = .next (s.withDev (({ e with lb := { e.lb with replayDue := true } }.finishIf .a 0x0072 0).finishIf .b 0x0072 0)))
      ∧ (¬ ready → exec (.replayFetchComplete dt) s = .next (s.withDev d)))
    ∧ (s.dev.pw.powered = true →
      (∀ n ns, d.mayUse 10 3 = true → lb.queue = n :: ns →
        let used := d.useBank 3
        exec (.logCaptureWrite dt) s
          = .next (s.withDev { used with lb := { used.lb with queue := if n ≤ 1 then ns else (n - 1) :: ns } }))
      ∧ (d.mayUse 10 3 = false ∨ lb.queue = [] → exec (.logCaptureWrite dt) s = .next (s.withDev d)))

/-- R468, R479, R482: REPLAY_PLAYED_INPUT of a pin record. The pins' codes are the model's (log entry 22). Outside REPLAY, and where no
record is left, nothing is played. -/
def Obligations.PlayedInputs : Prop :=
  ∀ (s : State) (dt : Nat) (r : LogRec) (rs : List LogRec) (rp : Replay), s.dev.pw.powered = true →
    let d := s.after dt
    let tag := (r.words.getD 0 0#14).toNat
    let next := fun r : Replay => s.withDev { d with lb := { d.lb with replay := some r } }
    (d.pw.mode ≠ .replay → exec (.replayPlayedInput dt) s = .next (s.withDev d))
    ∧ (d.lb.replay = some rp → rp.entry = [] → exec (.replayPlayedInput dt) s = .next (s.withDev d))
    ∧ (d.pw.mode = .replay → d.lb.replay = some rp → rp.entry = r :: rs → d.ck.slot < r.slot →
      exec (.replayPlayedInput dt) s = .next (s.withDev d))
    ∧ (d.pw.mode = .replay → d.lb.replay = some rp → rp.entry = r :: rs → r.kind = 5 → r.slot ≤ d.ck.slot →
      (tag / 16 % 16 = 0 → exec (.replayPlayedInput dt) s
        = .next (next { rp with entry := rs, on := decide (tag / 256 % 64 ≠ 0) }))
      ∧ (tag / 16 % 16 = 1 → tag / 256 % 64 ≠ 0 → exec (.replayPlayedInput dt) s
        = .next (next { rp with entry := rs, stopReason := some (rp.stopReason.getD 2) }))
      ∧ (tag / 16 % 16 = 1 → tag / 256 % 64 = 0 → exec (.replayPlayedInput dt) s = .next (next { rp with entry := rs })))

/-- R269, R276, R289 to R291: PILOT_EXCEPTION and PILOT_WINDOW_MISSED. -/
def Obligations.PilotFaults : Prop :=
  ∀ (s : State) (dt : Nat) (vec : Byte) (pc sp : BitVec 28) (frame : List Word) (p : Port), s.dev.pw.powered = true →
    let d := s.after dt
    (Memory.wf d.ar.mem = true → d.pilotRuns = true → frame.length = 6 → 0x1EC006 ≤ sp.toNat → sp.toNat ≤ 0x1F0000 →
        (∀ i, i < 6 → d.writeHeld (sp.toNat - 6 + i) = false) →
      ∃ t, exec (.pilotException dt vec pc sp frame) s = .next t ∧ t.pending = s.pending
        ∧ (∀ i w, frame[i]? = some w → t.dev.rawGet (sp.toNat - 6 + i) = encodeWord w)
        ∧ (∀ b, b < sp.toNat - 6 ∨ sp.toNat ≤ b → t.dev.rawGet b = d.rawGet b)
        ∧ t.dev.pl = d.pl ∧ t.dev.pw = d.pw)
    ∧ (∀ c cause, d.pilotRuns = true → ((c = .pilotException dt vec pc sp frame ∧ cause = 1
          ∧ (sp.toNat < 0x1EC006 ∨ 0x1F0000 < sp.toNat))
        ∨ (c = .pilotWindowMissed dt p pc sp ∧ ∃ m, d.cmd p = some m
          ∧ ((m.phase = .admitted ∧ cause = 2 ∧ m.nextAt + 4096 ≤ d.now)
            ∨ (m.phase ≠ .admitted ∧ cause = 3 ∧ m.op ≠ 0x0001
              ∧ ∃ n, d.windowSlots m = some n ∧ m.acceptAt + n ≤ d.now)
            ∨ (m.phase ≠ .admitted ∧ cause = 3 ∧ m.op = 0x0001
              ∧ (m.acceptTick + 1 + m.grace < d.ck.tick
                ∨ (m.acceptTick + 1 + m.grace = d.ck.tick ∧ d.ck.curLen ≤ d.ck.slot + 1)))))) →
      ∃ t, exec c s = .next t ∧ t.pending = s.pending ∧ t.dev.pl.locked = true ∧ t.dev.pl.boat.cause = cause
        ∧ t.dev.pl.boat.pc = pc.toNat ∧ t.dev.pl.boat.sp = sp.toNat ∧ t.dev.pl.boat.tick = d.ck.tick
        ∧ t.dev.pw.limpCause = 2 ∧ t.dev.cmd .a = none ∧ t.dev.cmd .b = none
        ∧ t.dev.pl.limpDue = (if d.pw.mode = .store then none else some d.now)
        ∧ (∀ q, (t.dev.chan (pilotChan q)).queue = (d.chan (pilotChan q)).queue)
        ∧ (∀ n, n < 64 → (t.dev.semL n).owner ≠ some .pilot))
    ∧ (d.pilotRuns = false → exec (.pilotException dt vec pc sp frame) s = .next (s.withDev d)
      ∧ exec (.pilotWindowMissed dt p pc sp) s = .next (s.withDev d))
    ∧ (d.cmd p = none → exec (.pilotWindowMissed dt p pc sp) s = .next (s.withDev d))

/-! ### The keel store -/

/-- R62, R145, R224, R227, R233, R372: PAGE_STORE_READ, in a slot of the page's bank that is the keel store's or that the RETAIN entry has
free, and in any other. That a page's read begins in the slot in which one becomes possible is the model's reading (log entry 14). -/
def Obligations.PageStoreReads : Prop :=
  ∀ (s : State) (dt : Nat), s.dev.pw.powered = true →
    let d := s.after dt
    let e := d.beginRead
    let open' := fun page : Nat => (e.readsTallies && e.taskNow .tally) = false
      ∧ ((d.pw.retainEntry = true ∧ d.ar.lastUse.getD (page / 512) none ≠ some d.now) ∨ e.mayUse 7 (page / 512) = true)
    (d.keelKeeps = false ∨ (d.pw.mode.timetabled = false ∧ d.pw.retainEntry = false) →
      exec (.pageStoreRead dt) s = .next (s.withDev d))
    ∧ (d.keelKeeps = true → d.pw.mode.timetabled = true ∨ d.pw.retainEntry = true →
      (e.kl.reading = none ∨ (∃ b, e.kl.reading = some b ∧ ¬ open' b.page) →
        exec (.pageStoreRead dt) s = .next (s.withDev e))
      ∧ (∀ b, d.pw.mode ≠ .replay → e.kl.reading = some b → open' b.page →
        ∃ t, exec (.pageStoreRead dt) s = .next t ∧ t.pending = s.pending ∧ t.dev.sameMemory d
          ∧ t.dev.pa = d.pa ∧ t.dev.pb = d.pb
          ∧ (b.read < 1023 →
            let r := d.checkAt (1024 * b.page + b.read)
            let wrote := d.vaultPage b.page && d.ar.written.contains (1024 * b.page + b.read)
            t.dev.kl = { e.kl with reading := some { b with
              data := if r.data = 0#14 then b.data else b.data ++ [(b.read, r.data)],
              uncorr := if r.out = .uncorrectable then b.uncorr ++ [b.read] else b.uncorr,
              written := if wrote then b.written ++ [b.read] else b.written,
              read := b.read + 1 } })
          ∧ (b.read = 1023 → ∀ x, t.dev.kl.reading = some x → x.read = 0))
      ∧ (∀ q, d.kl.reading = none → d.inFlight < 4 → d.kl.stuck = false → d.nextToRead = some q →
        (e.kl.reading.map fun x => (x.page, x.read)) = some (q, 0) ∧ (e.pageRec q).map PageRec.state = some .storing))

/-- R221, R224, R227, R231, R242: PAGE_STORE_COMMIT, outside REPLAY and before a replay has spent the device, where no map commit ends in
the same slot. R229, R231: MAP_COMMIT_COMPLETE outside a store sequence with no retirement under way. Neither acts before its last
slot. -/
def Obligations.StoreAndMapCommits : Prop :=
  (∀ (s : State) (dt : Nat) (ok : Bool) (g : Program), s.dev.pw.powered = true →
    let d := s.after dt
    let b := g.buf
    let p := g.phys
    (d.kl.prog = some g → b.read ≠ 1024 ∨ d.programmed g (d.now + 1) < 16000 →
      exec (.pageStoreCommit dt ok) s = .next (s.withDev d))
    ∧ (d.kl.prog = none → exec (.pageStoreCommit dt ok) s = .next (s.withDev d))
    ∧ (d.pw.mode ≠ .replay → d.lb.spent = false → d.kl.prog = some g → b.read = 1024 →
        16000 ≤ d.programmed g (d.now + 1) → (∀ c, d.kl.commit = some c → d.now + 1 < c.startAt + 128000) →
      (∃ t, exec (.pageStoreCommit dt true) s = .next t ∧ t.pending = s.pending ∧ t.dev.sameMemory d
        ∧ (t.dev.phys p).count = (d.phys p).count + 1
        ∧ ((t.dev.phys p).copy.map fun c => (c.data, c.written, c.uncorr, c.logical, c.page, c.append, c.crcOk))
          = some (b.data, b.written, b.uncorr, b.logical, b.page, b.append, true)
        ∧ (∀ q, q ≠ p → t.dev.phys q = d.phys q)
        ∧ t.dev.kl.uncovered = d.kl.uncovered ++ [{ logical := b.logical, phys := p, page := b.page }]
        ∧ (b.move = false → (∀ r, d.pageRec b.page = some r → r.state ≠ .redirty) → t.dev.pageRec b.page = none))
      ∧ (∃ t, exec (.pageStoreCommit dt false) s = .next t ∧ t.pending = s.pending ∧ t.dev.sameMemory d
        ∧ (t.dev.phys p).bad = true ∧ (t.dev.phys p).count = (d.phys p).count
        ∧ (t.dev.phys p).copy = (d.phys p).copy ∧ (∀ q, q ≠ p → t.dev.phys q = d.phys q)
        ∧ t.dev.kl.uncovered = d.kl.uncovered ∧ t.dev.kl.pages.map PageRec.page = d.kl.pages.map PageRec.page)))
  ∧ (∀ (s : State) (dt : Nat) (c : MapCommit), s.dev.pw.powered = true →
    let d := s.after dt
    (d.kl.commit = none ∨ (d.kl.commit = some c ∧ d.now + 1 < c.startAt + 128000) →
      exec (.mapCommitComplete dt) s = .next (s.withDev d))
    ∧ (d.lb.spent = false → d.kl.commit = some c → c.final = false → c.startAt + 128000 ≤ d.now + 1 →
        d.kl.seqStart = none → d.storing = false → d.ar.retire = none → d.kl.uncovered = c.covers →
      ∃ t, exec (.mapCommitComplete dt) s = .next t ∧ t.pending = s.pending ∧ t.dev.sameMemory d
        ∧ (((d.validMap.map fun x => x.1).getD 1 = 0 → t.dev.kl.map1 = some c.copy ∧ t.dev.kl.map0 = d.kl.map0)
          ∧ ((d.validMap.map fun x => x.1).getD 1 ≠ 0 → t.dev.kl.map0 = some c.copy ∧ t.dev.kl.map1 = d.kl.map1))
        ∧ t.dev.kl.logical = coverAll d.kl.logical c.covers ∧ t.dev.kl.uncovered = []
        ∧ t.dev.kl.commit = none))

/-! ### The packer -/

/-- R20, R23, R25, R318, R319, R321, R322, R335, R343, R344, R349: INTAKE_READ and PACKER_CODING, each in a slot that is due and in any
other, and PKR_ARM_WRITE. -/
def Obligations.PackerChannels : Prop :=
  ∀ (s : State) (dt : Nat) (c : Fin 16), s.dev.pw.powered = true →
    let d := s.after dt
    let x := d.pkr c
    let a := d.pk.intake + c
    let readDue := d.pw.mode.packs = true ∧ d.taskNow .intake = true ∧ d.mayUse 3 (bankOf a) = true ∧ d.chanOn c = true
      ∧ x.read = false ∧ ∀ b, b < c.val → d.chanOn b = true → (d.pkr b).read = true
    let codeDue := d.pw.mode.packs = true ∧ c < d.pk.nCh ∧ d.taskNow .coding = true ∧ d.codeWork c = true
      ∧ (∀ b, b < c.val → d.codeWork b = false)
      ∧ ∀ t0 slot, d.pk.hist = some (t0, slot) → d.mayUse 3 (bankOf (d.chanBase slot c)) = true
    (readDue → c < d.pk.chans.length → d.pw.mode ≠ .replay →
      let r := d.checkAt a
      ∃ t, exec (.intakeRead dt c) s = .next t ∧ t.pending = s.pending ∧ t.dev.sameMemory d
        ∧ (x.fresh = true → r.out ≠ .uncorrectable →
          t.dev.pkr c = { x with fresh := false, read := true, sample := some (some r.data) })
        ∧ (x.fresh = false ∨ r.out = .uncorrectable →
          t.dev.pkr c = { x with fresh := false, read := true, sample := some none, miss := min 16383 (x.miss + 1) })
        ∧ (∀ k, k ≠ c.val → t.dev.pkr k = d.pkr k)
        ∧ t.dev = { d with draws := t.dev.draws, ar := t.dev.ar, ev := t.dev.ev, lb := t.dev.lb,
                           pk := { d.pk with chans := t.dev.pk.chans } })
    ∧ (¬ readDue → exec (.intakeRead dt c) s = .next (s.withDev d))
    ∧ (¬ codeDue → exec (.packerCoding dt c) s = .next (s.withDev d))
    ∧ (codeDue → d.pk.hist = none → exec (.packerCoding dt c) s = .next (s.withDev (d.modPkr c fun x =>
        { x with coded := true, sample := if x.read then x.sample else none })))
    ∧ (∀ t0 slot v, codeDue → c < d.pk.chans.length → d.pk.hist = some (t0, slot) → d.pk.frz = none → x.truncDue = none →
        x.read = false → x.sample = some v → 1 ≤ d.ck.tick → t0 < d.ck.tick →
      let i := (d.ck.tick - 1 - t0) % 32
      let a := d.freezeArea slot c + 1 + i
      ∃ t, exec (.packerCoding dt c) s = .next t ∧ t.pending = s.pending
        ∧ (∀ k, k ≠ c.val → t.dev.pkr k = d.pkr k)
        ∧ (i < 31 → t.dev.pkr c = { x with
            coded := true, sample := none, staged := i + 1,
            missing := x.missing ++ (List.range i).drop x.staged ++ (if v = none then [i] else []),
            blockDesc := if i = 0 then x.desc else x.blockDesc })
        ∧ (i < 31 → Memory.wf d.ar.mem = true →
          (∀ w, v = some w → d.writeHeld a = false → t.dev.rawGet a = encodeWord w)
          ∧ (∀ b, b ≠ a ∨ v = none → t.dev.rawGet b = d.rawGet b))
        ∧ (i = 31 → x.discard = true → (t.dev.pkr c).lost = min 16383 (x.lost + 32)
          ∧ (t.dev.pkr c).staged = 0 ∧ (t.dev.pkr c).missing = [] ∧ (t.dev.pkr c).discard = false
          ∧ (t.dev.pkr c).blocks = x.blocks))
    ∧ (∀ y, s.acts dt y →
      (d.mayArm y = true → exec (.pkrArmWrite dt y c) s
        = .next (s.withDev (d.modPkr c fun x => { x with arm := true })))
      ∧ (d.mayArm y = false → exec (.pkrArmWrite dt y c) s = .next (s.withDev d)))

/-- R323 to R331, R333: the sizes R327 gives, and the bound of R333 for one step of R330. R327's sentence on blocks of at most 31
samples is stated outside ENVELOPE: an ENV block of one sample takes 4 words (NOTES.md, What a reviewer should know). -/
def Obligations.PackerBlocks : Prop :=
  (∀ (desc : Nat) (xs : List (Option Word)), 1 ≤ xs.length → xs.length ≤ 32 →
    (codeBlock desc xs).length ≤ 454 ∧ (blockWords (codeBlock desc xs)).length ≤ 33
    ∧ (xs.length ≤ 31 → descMode desc ≠ 3 →
      (blockWords (codeBlock desc xs)).length ≤ (6 + 14 * xs.length + 13) / 14))
  ∧ (∀ (desc n : Nat) (kept : List (Option Word)), n ≤ 32 → kept.length < n →
    (truncBits desc n kept).length ≤ 450 ∧ (blockWords (truncBits desc n kept)).length ≤ 33)
  ∧ (∀ (e x : Nat) (p : Int) (rest : List Nat), x ≤ 16383 → ∃ q : Int,
    let r := min (max (p + q * (2 * e + 1)) 0) 16383
    boundedGo e p (x :: rest) = q :: boundedGo e r rest ∧ (r - x).natAbs ≤ e)

/-! ### Tallies and records -/

/-- R282, R369, R371, R373: TALLY_UPDATE. -/
def Obligations.TallyUpdates : Prop :=
  ∀ (s : State) (dt : Nat) (n : Fin 16), s.dev.pw.powered = true →
    let d := s.after dt
    let x := d.tally n
    let due := x.incs.filter fun i => decide (d.acceptTick i.1 < d.ck.tick)
    (d.pilotRuns = true → d.taskNow .tally = true → due ≠ [] → n.val < d.ks.tallies.length →
      ∃ t, exec (.tallyUpdate dt n) s = .next t ∧ t.pending = s.pending
        ∧ t.dev.tally n = { x with
            copy1 := !x.copy1, ver := (x.ver + 1) % 16384, high := (t.dev.tally n).high, low := (t.dev.tally n).low,
            nInc := (x.nInc + due.length) % 2 ^ 42, incs := x.incs.filter fun i => !due.contains i,
            worn := x.worn || decide (1000000000 < (x.nInc + due.length) % 2 ^ 42) }
        ∧ (t.dev.tally n).value = x.value + (due.map Prod.snd).sum
        ∧ (x.low + (due.map Prod.snd).sum ≤ 63 → (t.dev.tally n).high = x.high)
        ∧ (63 < x.low + (due.map Prod.snd).sum → (t.dev.tally n).low < 64)
        ∧ (∀ k, k ≠ n.val → t.dev.tally k = d.tally k)
        ∧ (Memory.wf d.ar.mem = true →
          let base := d.tallyBase n + 32 * b2n (!x.copy1)
          ((∀ i, i < 32 → d.writeHeld (base + i) = false) → ∀ i, i < 32 → t.dev.rawGet (base + i)
            = encodeWord ((tallyWords n ((x.ver + 1) % 16384) (t.dev.tally n).high (t.dev.tally n).low
                ((x.nInc + due.length) % 2 ^ 42)).getD i 0#14))
          ∧ (∀ a, a < base ∨ base + 32 ≤ a → t.dev.rawGet a = d.rawGet a)))
    ∧ (d.pilotRuns = false ∨ d.taskNow .tally = false ∨ due = [] →
      exec (.tallyUpdate dt n) s = .next (s.withDev d))

/-- R70, R361 to R366, R374, R375, R415: SIGNATURE_DONE, AUDIT_VERIFY_DONE and REPAIR_REPLICA_TIMEOUT, each in its last slot and before
it. -/
def Obligations.SealEngine : Prop :=
  ∀ (s : State) (dt : Nat), s.dev.pw.powered = true →
    let d := s.after dt
    let ks := d.ks
    let runs := d.pw.mode.timetabled = true ∧ d.pw.mode ≠ .store ∧ d.pl.locked = false
    let signed := runs ∧ 2880000 ≤ ks.sigDone + d.sliceSlots (d.now + 1)
    let checked := runs ∧ ks.active = none ∧ 4320000 ≤ ks.auditDone + d.sliceSlots (d.now + 1)
    (¬ signed ∨ ks.active = none → exec (.signatureDone dt) s = .next (s.withDev d))
    ∧ (∀ i, signed → ks.active = some (.record i) → i < ks.recs.length → i ∉ ks.queue →
      ∃ t, exec (.signatureDone dt) s = .next t ∧ t.pending = s.pending
        ∧ (t.dev.slotRec i).state = .local' ∧ (t.dev.slotRec i).seq = (d.slotRec i).seq
        ∧ (t.dev.slotRec i).members = []
        ∧ t.dev.ks.sealedCnt = min 16383 (ks.sealedCnt + 1) ∧ t.dev.ks.sealFree = ks.sealFree + 1
        ∧ (∃ sig, t.dev.ks.lastSig = some ((d.slotRec i).seq, sig))
        ∧ (∀ j q, ks.attests = [] → ks.queue = j :: q →
          t.dev.ks.active = some (.record j) ∧ t.dev.ks.queue = q
          ∧ (j < ks.recs.length → (t.dev.slotRec j).state = .sealing))
        ∧ (ks.attests = [] → ks.queue = [] → Memory.wf d.ar.mem = true → d.writeHeld (d.trailerBase i + 56) = false →
          t.dev.rawGet (d.trailerBase i + 56) = encodeWord 0x3A51#14))
    ∧ (∀ p ws dest, signed → ks.active = some (.attest p ws dest) →
      ∃ t, exec (.signatureDone dt) s = .next t ∧ t.pending = s.pending ∧ t.dev.cmd p = none
        ∧ t.dev.ks.sealedCnt = ks.sealedCnt ∧ t.dev.ks.lastSig = ks.lastSig
        ∧ (ks.attests = [] → ks.queue = [] → Memory.wf d.ar.mem = true →
            (∀ i, i < 37 → d.writeHeld (dest + 18 + i) = false) → ∀ i w, (signWords ws)[i]? = some w →
          t.dev.rawGet (dest + 18 + i) = encodeWord w))
    ∧ (∀ n ws, signed → ks.active = some (.replica n ws) → n < ks.tallies.length →
      ∃ t, exec (.signatureDone dt) s = .next t ∧ t.pending = s.pending
        ∧ t.dev.tally n = { d.tally n with lastReplica := replicaValue ws, lastReplicaAt := some d.now }
        ∧ (∀ k, k ≠ n → t.dev.tally k = d.tally k))
    ∧ (¬ checked ∨ d.auditFrom ks.audit = none → exec (.auditVerifyDone dt) s = .next (s.withDev d))
    ∧ (∀ i, checked → d.auditFrom ks.audit = some i →
      ∃ t, exec (.auditVerifyDone dt) s = .next t ∧ t.pending = s.pending
        ∧ t.dev.ks.audit = (d.auditFrom ((i + 1) % ks.slots)).getD i
        ∧ (t.dev.slotRec i = d.slotRec i ∨ t.dev.slotRec i = { d.slotRec i with state := .mismatch })
        ∧ (∀ k, k ≠ i → t.dev.slotRec k = d.slotRec k)
        ∧ (∀ a, d.pw.mode ≠ .replay → (d.slotRec i).state ≠ .mismatch → i < ks.recs.length →
            ((d.slotBase i ≤ a ∧ a < d.slotBase i + (ks.wRec - 64)) ∨ (d.trailerBase i ≤ a ∧ a < d.trailerBase i + 64)) →
            (d.checkAt a).out = .uncorrectable →
          (t.dev.slotRec i).state = .mismatch ∧ t.dev.ks.mismatch = min 16383 (ks.mismatch + 1)))
    ∧ (∀ r, ks.repair = some r → r.tick + 64 ≤ d.ck.tick →
      ∃ t, exec (.repairReplicaTimeout dt) s = .next t ∧ t.pending = s.pending
        ∧ t.dev.ks.repair = (d.team[r.member + 1]?).map (fun _ =>
          { slot := r.slot, member := r.member + 1, tick := d.ck.tick })
        ∧ t.dev = { d with ks := { ks with repair := t.dev.ks.repair }, rg := t.dev.rg })
    ∧ (ks.repair = none ∨ (∃ r, ks.repair = some r ∧ d.ck.tick < r.tick + 64) →
      exec (.repairReplicaTimeout dt) s = .next (s.withDev d))

/-! ### The tick -/

/-- R22 steps 1 and 2, R73 to R75, R78, R79, R403, R462: TICK_BOUNDARY. What falls due before slot 0 of the tick that begins comes before
it. -/
def Obligations.TickBoundaries : Prop :=
  ∀ (s : State), s.dev.pw.powered = true →
    let d := s.after 0
    let e := d.toBoundary
    let ck := e.ck
    (d.ck.running = false → exec .tickBoundary s = .next (s.withDev d))
    ∧ (d.ck.running = true → ck.running = true → e.pw.mode.timetabled = true → e.pw.mode ≠ .replay →
        e.lb.replayDue = false →
      ∃ t, exec .tickBoundary s = .next t ∧ t.pending = s.pending
        ∧ t.dev.ck.tick = (ck.setTick.getD (ck.tick + 1)) % 2 ^ 56 ∧ t.dev.ck.slot = 0 ∧ t.dev.ck.running = true
        ∧ t.dev.ck.curLen
          = (if ck.source = 0 ∨ (ck.matched = false ∧ ck.matchedNext = false) then ck.lenReg else ck.nextLen.getD ck.lenReg)
        ∧ t.dev.ck.prevLen = ck.curLen ∧ t.dev.ck.nextLen = none
        ∧ t.dev.ck.deadline = t.dev.ck.curLen - ck.intakeLead
        ∧ t.dev.ar.rate = e.ar.rateSh ∧ (∀ n, n < 64 → (t.dev.src n).mask = (e.src n).maskSh)
        ∧ (∀ k, (t.dev.chan k).acktoEff = (e.chan k).ackto)
        ∧ t.dev.rg.needA = e.rg.needASh ∧ t.dev.rg.needB = e.rg.needBSh
        ∧ t.dev.pw.wakeEn = e.pw.wakeEnSh ∧ t.dev.lb.scope = e.lb.scopeSh
        ∧ t.dev.hn.auditTick = t.dev.ck.tick % 16384
        ∧ t.dev.hn.auditSum = (t.dev.hn.audit.foldl (fun x w => x ^^^ w) (wd t.dev.hn.auditTick)).toNat
        ∧ t.dev.pw.mode = e.pw.mode ∧ t.dev.now = d.now + (d.ck.curLen - d.ck.slot))

/-- R27, R64 to R67, R129, R144, R277: URGENT_CHECK_POINT. -/
def Obligations.CheckPoints : Prop :=
  ∀ (s : State) (dt : Nat), s.dev.pw.powered = true →
    let d := s.after dt
    (d.pw.mode.timetabled = false ∨ d.ck.slot % 64 ≠ 0 ∨ d.ck.lastCheck = some d.now →
      exec (.urgentCheckPoint dt) s = .next (s.withDev d))
    ∧ (d.pw.mode.timetabled = true → d.ck.slot % 64 = 0 → d.ck.lastCheck ≠ some d.now →
      ∃ t, exec (.urgentCheckPoint dt) s = .next t ∧ t.pending = s.pending
        ∧ (d.pfail = true → d.ck.active = .run ∨ d.ck.active = .hold → d.keelSilent = false →
          t.dev.pw.mode = .store ∧ t.dev.ck.active = .store ∧ t.dev.cmd .a = none ∧ t.dev.cmd .b = none
          ∧ t.dev.kl.seqStart = some d.now ∧ t.dev.sameMemory d)
        ∧ (d.pfail = false → d.pw.mode = .run → d.pl.limpDue = none → d.pl.freezeReq ≠ [] →
          t.dev.pw.mode = .hold ∧ t.dev.ck.active = .hold ∧ t.dev.pl.freezeReq = [] ∧ t.dev.hn.trigger = none
          ∧ t.dev.ck.lastCheck = some d.now ∧ t.dev.pk.frz = some d.ck.tick ∧ t.dev.pk.fixAt = some (d.now + 5)
          ∧ t.dev.pl.freezing = d.pl.freezeReq)
        ∧ (d.pfail = false → d.pw.mode = .run → d.pl.limpDue = none → d.pl.freezeReq = [] →
            d.hn.trigger = none → d.pl.leaveReq = [] → d.pl.svcReq = [] → d.pl.sleepReq ≠ [] →
          t.dev.pw.mode = .retain ∧ t.dev.pw.retainEntry = true ∧ t.dev.ck.running = false ∧ t.dev.ck.active = .none
          ∧ t.dev.pl.sleepReq = [] ∧ t.dev.cmd .a = none ∧ t.dev.cmd .b = none))

/-- R74 to R76: TICK_PIN_REFERENCE, HOLDOVER_ENTRY, TICK_OUT_EDGE. R60, R61, R80, R93, R372: WINDOW_ENTRY_START and WINDOW_ENTRY_END.
To which boundary a reference counts is the model's reading (log entry 56). -/
def Obligations.TickReferenceAndEntries : Prop :=
  (∀ (s : State) (dt : Nat), s.dev.pw.powered = true →
    let d := s.after dt
    let ck := d.ck
    (d.pw.mode = .replay → exec (.tickPinReference dt) s = .next (s.withDev d))
    ∧ (d.pw.mode ≠ .replay → ck.source = 1 → ck.running = true →
      let r : Int := (d.ck.slot : Int) - 3
      let b := d.nearest r
      let e := r - b.1
      ∃ t, exec (.tickPinReference dt) s = .next t ∧ t.pending = s.pending
        ∧ t.dev.ck.phase = clampInt e 8191 ∧ t.dev.ck.holdover = false ∧ t.dev.ck.missed = 0
        ∧ t.dev.ck.nextLen = some ((ck.lenReg : Int) + clampInt e ck.slip).toNat
        ∧ t.dev.ck.matched = (ck.matched || decide (b.2 = ck.tick))
        ∧ t.dev.ck.clamped = (if e.natAbs ≤ ck.slip then ck.clamped else min 16383 (ck.clamped + 1))
        ∧ t.dev = { d with ck := t.dev.ck, ev := t.dev.ev, lb := t.dev.lb })
    ∧ (ck.source ≠ 0 → ck.holdover = false → ck.refLoss ≤ ck.missed → exec (.holdoverEntry dt) s
        = .next (s.withDev ({ d with ck := { d.ck with holdover := true } }.fire 27)))
    ∧ (ck.source = 0 ∨ ck.holdover = true ∨ ck.missed < ck.refLoss →
      exec (.holdoverEntry dt) s = .next (s.withDev d))
    ∧ (ck.tickOut = true → ck.running = true → ∃ t, exec (.tickOutEdge dt) s = .next t ∧ t.pending = s.pending
      ∧ t.dev.ck.tickPin = some (decide (3 ≤ d.ck.slot) && decide (d.ck.slot ≤ 34))
      ∧ t.dev = { d with ck := { d.ck with tickPin := t.dev.ck.tickPin }, lb := t.dev.lb })
    ∧ (ck.tickOut = false ∨ ck.running = false →
      exec (.tickOutEdge dt) s = .next (s.withDev { d with ck := { d.ck with tickPin := none } })))
  ∧ (∀ (s : State) (dt e : Nat) (w : Window), s.dev.pw.powered = true →
    let d := s.after dt
    let ck := d.ck
    (d.entry e = none → exec (.windowEntryStart dt e) s = .next (s.withDev d)
      ∧ exec (.windowEntryEnd dt e) s = .next (s.withDev d))
    ∧ (d.entry e = some w →
      (d.pw.mode.timetabled = true → w.start ck.curLen ≤ d.ck.slot → d.ck.slot ≤ w.stop ck.curLen →
          e ∉ ck.openEntries →
        let runs := { d with ck := { d.ck with openEntries := e :: ck.openEntries } }
        exec (.windowEntryStart dt e) s = .next (s.withDev
          (if w.task = .trickle ∨ w.task = .checkpoint ∨ w.task = .tally then runs.keelEntry w.task else runs)))
      ∧ (d.pw.mode.timetabled = false ∨ e ∈ ck.openEntries ∨ d.ck.slot < w.start ck.curLen
          ∨ w.stop ck.curLen < d.ck.slot →
        exec (.windowEntryStart dt e) s = .next (s.withDev d))
      ∧ (e ∈ ck.openEntries → w.stop ck.curLen ≤ d.ck.slot →
        let ended := { d with ck := { d.ck with openEntries := ck.openEntries.filter (· != e) } }
        let idle := d.pw.mode.packs = false
        (w.task.mustFinish = false ∨ (w.task = .tally ∧ d.tallyOpen = false)
            ∨ (w.task = .intake ∧ (idle ∨ d.intakeOpen = false)) ∨ (w.task = .coding ∧ idle) →
          exec (.windowEntryEnd dt e) s = .next (s.withDev ended))
        ∧ (w.task = .coding → d.pw.mode.packs = true → d.codingOpen = false →
          exec (.windowEntryEnd dt e) s = .next (s.withDev ended.wordEight))
        ∧ ((w.task = .tally ∧ d.tallyOpen = true) ∨ (w.task = .intake ∧ d.pw.mode.packs = true ∧ d.intakeOpen = true)
            ∨ (w.task = .coding ∧ d.pw.mode.packs = true ∧ d.codingOpen = true) →
          ∃ t, exec (.windowEntryEnd dt e) s = .next t ∧ t.pending = s.pending ∧ t.dev.ck = { ended.ck with
              overruns := min 16383 (ck.overruns + 1), ovrOwner := w.owner, ovrEntry := e, ovrTt := ck.active.code }
            ∧ (w.task = .tally → t.dev = { ended with ck := t.dev.ck, ev := t.dev.ev, pl := t.dev.pl })))
      ∧ (e ∉ ck.openEntries ∨ d.ck.slot < w.stop ck.curLen →
        exec (.windowEntryEnd dt e) s = .next (s.withDev d))))

/-! ### The harness monitor -/

/-- R27, R131, R149, R447 to R455, R479: HARNESS_MEASUREMENT, FRZ_WIRE_TEST and FRZ_PAIR_FILTERED. -/
def Obligations.HarnessMonitor : Prop :=
  ∀ (s : State) (dt : Nat), s.dev.pw.powered = true →
    let d := s.after dt
    let h := d.hn
    let o := h.pins
    (∀ r m w x c, d.pw.mode = .replay → d.lb.replay = some r →
      exec (.harnessMeasurement dt m) s
        = .next (s.withDev { d with lb := { d.lb with replay := some { r with pins := r.pins.measure m } } })
      ∧ exec (.frzWireTest dt w c) s
        = .next (s.withDev { d with lb := { d.lb with replay := some { r with pins := r.pins.test w c } } })
      ∧ exec (.frzPairFiltered dt x) s
        = .next (s.withDev { d with lb := { d.lb with replay := some { r with pins := r.pins.setPair x } } }))
    ∧ (∀ m, d.pw.mode ≠ .replay → ∃ t, exec (.harnessMeasurement dt m) s = .next t ∧ t.pending = s.pending
      ∧ t.dev.hn.pins.wake.cls = (if wakeClass m = o.wake.cand then wakeClass m else o.wake.cls)
      ∧ t.dev.hn.pins.wake.cand = wakeClass m
      ∧ t.dev.hn.pins.wake.fault = decide (2 ≤ t.dev.hn.pins.wake.cls)
      ∧ t.dev.hn.pins.vbats.cls = (if vbatsClass m = o.vbats.cand then vbatsClass m else o.vbats.cls)
      ∧ t.dev.hn.pins.vbats.fault = decide (3 ≤ t.dev.hn.pins.vbats.cls)
      ∧ t.dev.hn.pins.pair = o.pair
      ∧ (0 < m.vdd → m.vdd ≤ 10 * m.wake → 10 * m.wake ≤ 3 * m.vdd → wakeClass m = 1)
      ∧ (6000 ≤ m.vbats → m.vbats ≤ 32000 → (m.vbats - m.vbatsAlt).natAbs ≤ 1000 → vbatsClass m = 0)
      ∧ (d.pw.mode ≠ .off → d.pw.mode ≠ .retain → d.pw.mode ≠ .wake ∨ d.pw.wakeAt ≠ d.now ∨ d.pw.shortWake = false → t.dev
        = { d with hn := { h with pins := t.dev.hn.pins, faults := t.dev.hn.faults, rising := t.dev.hn.rising }, lb := t.dev.lb })
      ∧ (d.ev.live = true → o.vbats.fault = false → t.dev.hn.pins.vbats.fault = true → (d.now + 1, 49) ∈ t.dev.hn.rising)
      ∧ (d.ev.live = true → o.wake.fault = false → t.dev.hn.pins.wake.fault = true → (d.now + 1, 48) ∈ t.dev.hn.rising)
      ∧ (wakeClass m = 1 → o.wake.cand = 1 → o.wake.cls ≠ 1 → d.pw.mode = .off → d.pfail = false →
        d.jt.ir ≠ .extest → t.dev.pw.mode = .wake ∧ t.dev.pw.wakeSrc = .wakePin ∧ t.dev.pw.shortWake = false)
      ∧ (wakeClass m = 1 → o.wake.cand = 1 → o.wake.cls ≠ 1 → d.pw.mode = .retain →
        d.pw.retainEntry = false → d.pw.wakeEn.testBit 0 = true →
        t.dev.pw.mode = .wake ∧ t.dev.pw.wakeSrc = .wakePin ∧ t.dev.pw.shortWake = true))
    ∧ (∀ x, d.pw.mode ≠ .replay → ∃ t, exec (.frzPairFiltered dt x) s = .next t ∧ t.pending = s.pending
      ∧ t.dev.hn.trigger = (if o.pair = .idle ∧ x = .trig ∧ d.pw.mode.timetabled = true then some (d.now + 3)
        else h.trigger)
      ∧ t.dev.hn.frzBad = (if o.pair ≠ .bad ∧ x = .bad then min 16383 (h.frzBad + 1) else h.frzBad)
      ∧ (x = .bad → t.dev.hn.pins.frzFault = true)
      ∧ t.dev.hn.rising = h.rising ++ (if o.frzFault = false ∧ t.dev.hn.pins.frzFault = true ∧ d.ev.live = true then
          [(d.now + 1, 47)] else [])
      ∧ t.dev = { d with lb := t.dev.lb, hn :=
          { h with trigger := t.dev.hn.trigger, frzBad := t.dev.hn.frzBad, rising := t.dev.hn.rising, pins :=
              { o with pair := x, frzFault := t.dev.hn.pins.frzFault, frzOk := t.dev.hn.pins.frzOk } } })
    ∧ (∀ c, d.pw.mode ≠ .replay → ∃ t, exec (.frzWireTest dt .p c) s = .next t ∧ t.pending = s.pending
      ∧ t.dev.hn.pins.crossP = (if c then min 2 (o.crossP + 1) else 0)
      ∧ (c = true → 1 ≤ o.crossP → o.frzP.cls ≠ 4 → o.frzP.cls ≠ 5 →
        t.dev.hn.pins.frzP.cls = 2 ∧ t.dev.hn.pins.frzFault = true)
      ∧ (c = false → t.dev.hn.pins.frzP = o.frzP)
      ∧ t.dev = { d with lb := t.dev.lb, hn :=
          { h with faults := t.dev.hn.faults, rising := t.dev.hn.rising, pins :=
              { o with crossP := t.dev.hn.pins.crossP, frzP := t.dev.hn.pins.frzP,
                       frzFault := t.dev.hn.pins.frzFault, frzOk := t.dev.hn.pins.frzOk } } })

/-! ### Ring links -/

/-- R380 to R384, R391, R395, R405, R432, R480: LINK_DETECT, LINK_TRAINING_STEP, LINK_TRAINING_TIMEOUT, LINK_LOSS_OF_SIGNAL,
RETRAIN_TIMEOUT, PING, PONG_SEND and PONG. -/
def Obligations.LinkTraining : Prop :=
  ∀ (s : State) (dt : Nat) (l : Link), s.dev.pw.powered = true →
    let d := s.after dt
    d.linksTrain = true →
    let x := d.link l
    let restart := d.modLink l fun x =>
      { x with state := .training, step := 1, retrain := false, stepAt := d.now, pongs := [], pingOwed := [] }
    let probes := x.step = 1 ∧ (x.state = .training ∨ x.stepAt + 10000000 ≤ d.now)
    let late := (x.retrain = true ∧ x.stepAt + 1000000 ≤ d.now)
      ∨ (x.retrain = false ∧ 3 ≤ x.step ∧ x.stepAt + 100000 ≤ d.now)
    let goes := fun (n : Nat) (x : LinkSt) => { x with step := n, stepAt := if x.retrain then x.stepAt else d.now }
    (d.pw.mode ≠ .replay →
      (∀ r, probes → ∃ t, exec (.linkDetect dt l r) s = .next t ∧ t.pending = s.pending
        ∧ (r = .receiver → t.dev = { d.modLink l fun x => { x with
            state := .training, step := 2, retrain := false, stepAt := d.now, pongs := [], pingOwed := [] } with
              lb := t.dev.lb })
        ∧ (r = .nothing → t.dev = { d.modLink l fun x => { x with state := .los, stepAt := d.now } with lb := t.dev.lb })
        ∧ (r = .driver → (t.dev.link l).state = .reversed
          ∧ (x.state ≠ .reversed → x.everActive = true → d.hasRing = true → (t.dev.link l).broken = true)
          ∧ (t.dev.link l.other).state = (d.link l.other).state ∧ t.dev.ar = d.ar ∧ t.dev.pw = d.pw))
      ∧ (∀ r, ¬ probes → exec (.linkDetect dt l r) s = .next (s.withDev d))
      ∧ (∀ inv, (x.state ≠ .training ∨ late → exec (.linkTrainingStep dt l inv) s = .next (s.withDev d))
        ∧ (x.state = .training → ¬ late →
          (x.step = 2 → exec (.linkTrainingStep dt l inv) s = .next (s.withDev (d.modLink l fun x => goes 3 x)))
          ∧ (x.step = 3 → exec (.linkTrainingStep dt l inv) s
            = .next (s.withDev (d.modLink l fun x => { goes 4 x with polInv := inv, pongs := [] })))
          ∧ (x.step = 4 → x.pongs.length = 8 → exec (.linkTrainingStep dt l inv) s
            = .next (s.withDev (d.modLink l fun x =>
              { goes 5 x with dly := ((x.pongs.foldl (· + ·) 0 + 7) / 16).toNat })))
          ∧ (x.step = 4 → x.pongs.length ≠ 8 → exec (.linkTrainingStep dt l inv) s = .next (s.withDev d))
          ∧ (x.step = 5 → ∃ t, exec (.linkTrainingStep dt l inv) s = .next t ∧ t.pending = s.pending
            ∧ (t.dev.link l).state = .active ∧ (t.dev.link l).step = 0 ∧ (t.dev.link l).everActive = true
            ∧ (t.dev.link l).retrain = false ∧ (t.dev.link l).asleep = false ∧ (t.dev.link l).broken = false
            ∧ (x.everActive = false → x.unacked = [] → (t.dev.link l).credits = [8, 8, 4, 4])
            ∧ (x.everActive = true → x.restart = false → (t.dev.link l).credits = x.credits)
            ∧ t.dev.ar = d.ar ∧ t.dev.pw = d.pw)))
      ∧ (x.state = .training → x.retrain = false → late → ∃ t, exec (.linkTrainingTimeout dt l) s = .next t
        ∧ t.pending = s.pending ∧ t.dev = { restart with lb := t.dev.lb })
      ∧ (x.state ≠ .training ∨ x.retrain = true ∨ ¬ late →
        exec (.linkTrainingTimeout dt l) s = .next (s.withDev d))
      ∧ (x.retrain = false ∨ ¬ late → exec (.retrainTimeout dt l) s = .next (s.withDev d))
      ∧ (x.retrain = true → late → ∃ t, exec (.retrainTimeout dt l) s = .next t ∧ t.pending = s.pending
        ∧ (t.dev.link l).state = .training ∧ (t.dev.link l).step = 1 ∧ (t.dev.link l).retrain = false
        ∧ (x.everActive = true → d.hasRing = true → (t.dev.link l).broken = true)
        ∧ t.dev.ar = d.ar ∧ t.dev.pw = d.pw)
      ∧ (x.state ≠ .active → exec (.linkLossOfSignal dt l) s = .next (s.withDev d))
      ∧ (x.state = .active → x.asleep = true → ∃ t, exec (.linkLossOfSignal dt l) s = .next t
        ∧ t.pending = s.pending ∧ t.dev = { restart with lb := t.dev.lb })
      ∧ (x.state = .active → x.asleep = false → ∃ t, exec (.linkLossOfSignal dt l) s = .next t
        ∧ t.pending = s.pending ∧ (t.dev.link l).state = .training ∧ (t.dev.link l).step = 1
        ∧ (x.everActive = true → d.hasRing = true → (t.dev.link l).broken = true)
        ∧ t.dev.ar = d.ar ∧ t.dev.pw = d.pw)
      ∧ (∀ tok, (x.state = .training → exec (.ping dt l tok) s
          = .next (s.withDev (d.modLink l fun x => { x with pingOwed := x.pingOwed ++ [tok.toNat] })))
        ∧ (x.state ≠ .training → exec (.ping dt l tok) s = .next (s.withDev d)))
      ∧ (∀ turn, (∀ k ks, x.pingOwed = k :: ks → exec (.pongSend dt l turn) s
          = .next (s.withDev (d.modLink l fun x => { x with pingOwed := ks, sent := .pong k turn })))
        ∧ (x.pingOwed = [] → exec (.pongSend dt l turn) s = .next (s.withDev d)))
      ∧ (∀ tok delay turn, (x.state = .training → x.step = 4 → x.pongs.length < 8 → exec (.pong dt l tok delay turn) s
          = .next (s.withDev (d.modLink l fun x =>
            { x with pongs := x.pongs ++ [(delay : Int) - 16 * (640 + (turn.val : Int))] })))
        ∧ (x.state ≠ .training ∨ x.step ≠ 4 ∨ 8 ≤ x.pongs.length →
          exec (.pong dt l tok delay turn) s = .next (s.withDev d))))
    ∧ (∀ r c probe inv tok turn delay, d.pw.mode = .replay → d.lb.replay = some r →
        c ∈ [Instr.linkLossOfSignal dt l, .linkTrainingTimeout dt l, .retrainTimeout dt l, .linkDetect dt l probe,
          .linkTrainingStep dt l inv, .ping dt l tok, .pongSend dt l turn, .pong dt l tok delay turn] →
      ∃ t up dn, exec c s = .next t ∧ t.pending = s.pending
        ∧ t.dev = { d with lb := { d.lb with replay := some { r with liveUp := up, liveDn := dn } } })

/-- R385, R391, R394, R395, R400 to R403, R432, R433: ACK, NAK, CRD, LINK_RETRY_TIMEOUT, SLEEP, PASSON, PASSOFF and MARK on a link that is
ACTIVE. That a ninth resend without progress is the one that retrains is the model's reading (log entry 53). -/
def Obligations.LinkSets : Prop :=
  ∀ (s : State) (dt : Nat) (l : Link), s.dev.pw.powered = true →
    let d := s.after dt
    d.pw.mode ≠ .replay → d.linkLive l = true →
    let x := d.link l
    (∀ q : BitVec 12,
      (∀ i, findSeq q.toNat x.unacked = some i → ∃ t, exec (.ack dt l q) s = .next t ∧ t.pending = s.pending
        ∧ (∀ n, n ∈ (t.dev.link l).resend ↔ n ∈ x.resend ∧ ∃ f ∈ x.unacked.drop (i + 1), f.seq = n)
        ∧ t.dev = { d.modLink l fun x => { x with unacked := x.unacked.drop (i + 1), tries := 0,
                                                  resend := (t.dev.link l).resend } with lb := t.dev.lb })
      ∧ (findSeq q.toNat x.unacked = none → (∃ t, exec (.ack dt l q) s = .next t ∧ t.pending = s.pending
          ∧ t.dev = { d with lb := t.dev.lb })
        ∧ (∃ t, exec (.nak dt l q) s = .next t ∧ t.pending = s.pending ∧ t.dev = { d with lb := t.dev.lb }))
      ∧ (∀ i, findSeq q.toNat x.unacked = some i → x.tries < 8 → ∃ t, exec (.nak dt l q) s = .next t
        ∧ t.pending = s.pending ∧ t.dev = { d.modLink l fun x =>
            { x with resend := (x.unacked.drop i).map SentFrame.seq, tries := x.tries + 1 } with lb := t.dev.lb })
      ∧ (∀ i, findSeq q.toNat x.unacked = some i → 8 ≤ x.tries → ∃ t, exec (.nak dt l q) s = .next t
        ∧ t.pending = s.pending ∧ (t.dev.link l).state = .training ∧ (t.dev.link l).step = 3
        ∧ (t.dev.link l).retrain = true ∧ t.dev.rg.retrains = min 16383 (d.rg.retrains + 1)))
    ∧ (x.unacked = [] → exec (.linkRetryTimeout dt l) s = .next (s.withDev d))
    ∧ (∀ f fs, x.unacked = f :: fs →
      (d.now < f.sentAt + 4000 → exec (.linkRetryTimeout dt l) s = .next (s.withDev d))
      ∧ (f.sentAt + 4000 ≤ d.now → x.tries < 8 → exec (.linkRetryTimeout dt l) s = .next (s.withDev
          (d.modLink l fun x => { x with resend := x.unacked.map SentFrame.seq, tries := x.tries + 1 })))
      ∧ (f.sentAt + 4000 ≤ d.now → 8 ≤ x.tries → ∃ t, exec (.linkRetryTimeout dt l) s = .next t ∧ t.pending = s.pending
        ∧ (t.dev.link l).state = .training ∧ (t.dev.link l).step = 3 ∧ (t.dev.link l).retrain = true
        ∧ t.dev.rg.retrains = min 16383 (d.rg.retrains + 1) ∧ t.dev.ar = d.ar))
    ∧ (∀ (c : Fin 4) (n : Byte), ∃ t, exec (.crd dt l c n) s = .next t ∧ t.pending = s.pending
      ∧ (x.held.length = 4 → x.credits.length = 4 →
        (t.dev.link l).held.getD c 0 + min n.toNat (x.held.getD c 0) = x.held.getD c 0
        ∧ (t.dev.link l).credits.getD c 0 = x.credits.getD c 0 + min n.toNat (x.held.getD c 0))
      ∧ (∀ k, k ≠ c.val → (t.dev.link l).held.getD k 0 = x.held.getD k 0
        ∧ (t.dev.link l).credits.getD k 0 = x.credits.getD k 0)
      ∧ t.dev = { d.modLink l fun x => { x with held := (t.dev.link l).held, credits := (t.dev.link l).credits } with
                  lb := t.dev.lb })
    ∧ exec (.sleep dt l) s = .next (s.withDev (d.modLink l fun x => { x with asleep := true }))
    ∧ (∀ c ∈ [Instr.passon dt l, .passoff dt l], ∃ t, exec c s = .next t ∧ t.pending = s.pending
      ∧ (t.dev.link l).unacked.map SentFrame.frame = x.unacked.map SentFrame.frame
      ∧ (t.dev.link l).unacked.map SentFrame.seq = List.range x.unacked.length
      ∧ t.dev = { d.modLink l fun x => { x with
          state := .training, step := 2, retrain := false, stepAt := d.now, pongs := [], pingOwed := [], restart := true,
          unacked := (t.dev.link l).unacked, resend := [], resendFirst := false, txSeq := x.unacked.length, rxSeq := 0,
          nakSent := false, ackOwed := none, nakOwed := none, crdOwed := [], markOwed := none } with lb := t.dev.lb })
    ∧ (∀ (k : BitVec 56) (acc : BitVec 24) (hops : BitVec 10) (check : BitVec 16) (fwd : Nat),
      let good := check.toNat = markCheck k.toNat acc.toNat hops.toNat
      (¬ good → exec (.mark dt l k acc hops check fwd) s
        = .next (s.withDev { d with rg := { d.rg with mkBad := min 16383 (d.rg.mkBad + 1) } }))
      ∧ (good → d.isAnchor = true → ∃ t, exec (.mark dt l k acc hops check fwd) s = .next t ∧ t.pending = s.pending
        ∧ t.dev = { d with rg := { d.rg with rt := acc.toNat }, lb := t.dev.lb })
      ∧ (good → d.isAnchor = false → d.ck.source ≠ 2 → (d.link l.other).broken = false →
          (d.link l.other).state = .active →
        let passed := some (k.toNat, (acc.toNat + x.dly + 16 * fwd) % 2 ^ 24, (hops.toNat + 1) % 1024)
        ∃ t, exec (.mark dt l k acc hops check fwd) s = .next t ∧ t.pending = s.pending
        ∧ t.dev = { d.modLink l.other fun y => { y with markOwed := passed } with lb := t.dev.lb })
      ∧ (good → d.isAnchor = false → d.ck.source = 2 → d.rg.markTaken = false → d.ck.running = true →
        ∃ t, exec (.mark dt l k acc hops check fwd) s = .next t ∧ t.pending = s.pending ∧ t.dev.rg.markTaken = true
        ∧ ((acc.toNat + x.dly + 24) / 48 ≤ d.ck.lenReg - d.ck.slip →
          t.dev.rg.kdly = (acc.toNat + x.dly) % 2 ^ 24 ∧ t.dev.ck.holdover = false ∧ t.dev.ck.missed = 0
          ∧ t.dev.rg.mkLate = d.rg.mkLate)
        ∧ (d.ck.lenReg - d.ck.slip < (acc.toNat + x.dly + 24) / 48 →
          t.dev.rg.mkLate = min 16383 (d.rg.mkLate + 1) ∧ t.dev.ck = d.ck)))

/-- R391 to R395, R400: LINK_TRANSMIT on a link that is ACTIVE. That a retrain's resends go before every other frame is the model's reading
(log entry 105). -/
def Obligations.LinkTransmission : Prop :=
  ∀ (s : State) (dt : Nat) (l : Link), s.dev.pw.powered = true →
    let d := s.after dt
    d.pw.mode ≠ .replay → d.linkLive l = true →
    let x := d.link l
    (∀ k acc hops, x.markOwed = some (k, acc, hops) →
      let own := if d.isAnchor = true then (48 * d.ck.slot) % 2 ^ 24 else acc
      ∃ t, exec (.linkTransmit dt l) s = .next t ∧ t.pending = s.pending
      ∧ t.dev = { d.modLink l fun x => { x with markOwed := none, sent := .mark k own hops } with lb := t.dev.lb }
      ∧ (d.isAnchor = false → t.dev.lb = d.lb))
    ∧ (x.markOwed = none →
      (∀ q, x.ackOwed = some q → exec (.linkTransmit dt l) s
        = .next (s.withDev (d.modLink l fun x => { x with ackOwed := none, sent := .ack q })))
      ∧ (∀ q, x.ackOwed = none → x.nakOwed = some q → exec (.linkTransmit dt l) s
        = .next (s.withDev (d.modLink l fun x => { x with nakOwed := none, sent := .nak q })))
      ∧ (∀ c cs, x.ackOwed = none → x.nakOwed = none → x.crdOwed = c :: cs → exec (.linkTransmit dt l) s
        = .next (s.withDev (d.modLink l fun x => { x with
            crdOwed := x.crdOwed.filter (· != c), sent := .crd c (x.crdOwed.count c) })))
      ∧ (x.ackOwed = none → x.nakOwed = none → x.crdOwed = [] →
        let sends (f : Frame) (y : LinkSt) : LinkSt := { y with
          txSeq := (y.txSeq + 1) % 4096, unacked := y.unacked ++ [{ seq := y.txSeq, frame := f, sentAt := d.now }],
          sent := .frame y.txSeq f, credits := y.credits.modify 0 (· - 1), held := y.held.modify 0 (· + 1),
          waiting := y.waiting.filter (· != 0) }
        let again (f g : SentFrame) : SentFrame := if g.seq = f.seq then { g with sentAt := d.now } else g
        (∀ f n ns, x.resend = n :: ns → x.unacked.find? (fun f => f.seq == n) = some f →
            x.resendFirst = true ∨ f.frame.typ.cls = 0 →
          ∃ t, exec (.linkTransmit dt l) s = .next t ∧ t.pending = s.pending
          ∧ t.dev.link l = { x with resend := ns, resendFirst := x.resendFirst && decide (ns ≠ []),
                                    unacked := x.unacked.map (again f), sent := .frame f.seq f.frame }
          ∧ t.dev.link l.other = d.link l.other
          ∧ t.dev.rg.retxUp = (if d.logical l = .up then min 16383 (d.rg.retxUp + 1) else d.rg.retxUp)
          ∧ t.dev.rg.retxDn = (if d.logical l = .dn then min 16383 (d.rg.retxDn + 1) else d.rg.retxDn)
          ∧ t.dev = { d with rg := t.dev.rg })
        ∧ (∀ f, x.resend = [] → x.through.find? (fun f => f.1.typ.cls == 0) = some f → 0 < x.credits.getD 0 0 →
          (∀ k, f.2 = some k → k ≠ l) → ∃ t, exec (.linkTransmit dt l) s = .next t ∧ t.pending = s.pending
          ∧ t.dev.link l = sends f.1 { x with through := x.through.erase f }
          ∧ (∀ k, f.2 = some k → t.dev.link k = { d.link k with crdOwed := (d.link k).crdOwed ++ [0] })
          ∧ t.dev = { d with rg := t.dev.rg })
        ∧ (∀ f, x.resend = [] → x.through = [] → x.locals.find? (fun f => f.typ.cls == 0) = some f →
          0 < x.credits.getD 0 0 → ∃ t, exec (.linkTransmit dt l) s = .next t ∧ t.pending = s.pending
          ∧ t.dev = { d.modLink l fun x => sends f { x with locals := x.locals.erase f } with lb := t.dev.lb })
        ∧ (x.resend = [] → x.through = [] → x.locals = [] → l ≠ d.outDown ∨ d.originates = false →
          d.rg.roping = none → exec (.linkTransmit dt l) s
            = .next (s.withDev (d.modLink l fun x => { x with sent := .idle })))))

/-! ### Ring frames -/

/-- R385, R387, R389 to R391, R393, R405, R480: THROUGH_FRAME_FORWARD, FRAME_CRC_FAILURE, MALFORMED_FRAME and UNKNOWN_ORDERED_SET, by the
bytes between SOF and EOF. That a frame that ends in ABORT is not counted in CRCERR is the model's reading (log entry 104). -/
def Obligations.FrameReception : Prop :=
  ∀ (s : State) (dt : Nat) (l : Link) (bs : List Byte), s.dev.pw.powered = true →
    let d := s.after dt
    let x := d.link l
    (d.pw.mode ≠ .replay → d.linkLive l = true →
      (∀ f seq, readFrame bs = .frame f seq →
        let behind := (x.rxSeq + 4096 - seq) % 4096
        (1 ≤ behind → behind ≤ 2047 → exec (.throughFrameForward dt l bs) s
          = .next (s.withDev (d.modLink l fun x => { x with ackOwed := some ((x.rxSeq + 4095) % 4096) })))
        ∧ (2047 < behind → x.nakSent = true → exec (.throughFrameForward dt l bs) s = .next (s.withDev d))
        ∧ (2047 < behind → x.nakSent = false → exec (.throughFrameForward dt l bs) s
          = .next (s.withDev (d.modLink l fun x => { x with nakOwed := some x.rxSeq, nakSent := true })))
        ∧ (behind = 0 → f.typ ≠ .enum → f.typ ≠ .enumEnd →
            (f.bcast = false ∧ (d.rg.numbered = false ∨ f.dst ≠ d.rg.nodeId)) ∨ (f.bcast = true ∧ l ≠ d.logical .up) →
          let took := s.accepted dt l f seq
          (f.hops ≤ 2 * d.ringCount → exec (.throughFrameForward dt l bs) s = .next (s.withDev
            (took.modLink (d.outFrom l) fun y => { y with through := y.through ++ [({ f with hops := f.hops + 1 }, some l)] })))
          ∧ (2 * d.ringCount < f.hops → exec (.throughFrameForward dt l bs) s = .next (s.withDev
            ({ took with rg := { took.rg with dropHop := min 16383 (d.rg.dropHop + 1) } }.oweCredit l f.typ.cls)))))
      ∧ (readFrame bs = .bad →
        let v := leBytes (bs.take 8)
        let out := d.link (d.outFrom l)
        let begun := 8 ≤ bs.length ∧ (v.testBit 59 = true ∨ d.rg.numbered = false ∨ v / 2 ^ 16 % 2 ^ 10 ≠ d.rg.nodeId)
          ∧ out.state = .active ∧ out.through = [] ∧ 0 < out.credits.getD (v / 2 ^ 4 % 2 ^ 2) 0
        let nak (e : Dev) : Dev := e.modLink l fun x => { x with nakOwed := some x.rxSeq, nakSent := true }
        let counted (e : Dev) : Dev := { e with rg := { e.rg with crcErr := min 16383 (d.rg.crcErr + 1) } }
        (¬ begun → exec (.frameCrcFailure dt l bs false) s
          = .next (s.withDev (if x.nakSent = true then counted d else nak (counted d))))
        ∧ (begun →
          let e := counted (d.modLink (d.outFrom l) fun y => { y with sent := .abort })
          exec (.frameCrcFailure dt l bs false) s = .next (s.withDev (if x.nakSent = true then e else nak e))))
      ∧ exec (.frameCrcFailure dt l bs true) s = .next (s.withDev (if x.nakSent = true then d
          else d.modLink l fun x => { x with nakOwed := some x.rxSeq, nakSent := true }))
      ∧ (∀ cls, readFrame bs = .malformed cls x.rxSeq →
        let bad := { d with rg := { d.rg with malform := min 16383 (d.rg.malform + 1) } }
        exec (.malformedFrame dt l bs) s = .next (s.withDev (bad.modLink l fun x =>
          { x with rxSeq := (x.rxSeq + 1) % 4096, ackOwed := some x.rxSeq, nakSent := false, crdOwed := x.crdOwed ++ [cls] })))
      ∧ (∀ code : Byte,
        let c := code.toNat
        let known := c ≤ 4 ∨ c = 0x10 ∨ c = 0x11 ∨ c = 0x20 ∨ (0x30 ≤ c ∧ c ≤ 0x3F)
        (known → exec (.unknownOrderedSet dt l code) s = .next (s.withDev d))
        ∧ (¬ known → exec (.unknownOrderedSet dt l code) s = .next (s.withDev
            { d with rg := { d.rg with malform := min 16383 (d.rg.malform + 1) } }))))
    ∧ (d.pw.mode ≠ .replay → d.linkLive l = false → ∀ c ∈ [Instr.throughFrameForward dt l bs, .frameCrcFailure dt l bs false,
        .frameCrcFailure dt l bs true, .malformedFrame dt l bs], exec c s = .next (s.withDev d))
    ∧ (∀ r, d.pw.mode = .replay → d.lb.replay = some r →
        ∀ c ∈ [Instr.throughFrameForward dt l bs, .frameCrcFailure dt l bs false, .frameCrcFailure dt l bs true,
          .malformedFrame dt l bs, .rep dt l bs, .semclaim dt l bs, .peer dt l bs, .keep dt l bs],
      ∃ t up dn, exec c s = .next t ∧ t.pending = s.pending
        ∧ t.dev = { d with lb := { d.lb with replay := some { r with liveUp := up, liveDn := dn } } })

/-- R396 to R399, R406, R409, R410: ENUMERATION_START, ENUM, ENUM_HOLD_TIMEOUT, ENUM_END, ENUM_RESTART_TIMEOUT, RINGMAP and FOLD. -/
def Obligations.RingEnumeration : Prop :=
  ∀ (s : State) (dt : Nat) (l : Link) (bs : List Byte) (f : Frame) (seq : Nat), s.timed dt →
    let d := s.after dt
    let rg := d.rg
    let w := fun i => (f.payload.getD i 0#14).toNat
    let frame (typ : FrameType) (src : Nat) (p : List Word) : Frame :=
      { typ := typ, src := src, dst := 0, hops := 0, bcast := false, reply := false, payload := padWords p }
    let begun := { d with rg := { rg with nodeId := 0, numbered := true, swapped := false, gotId := true,
                                          enumPhase := .down, enumAt := d.now, enumHeld := none } }.queueLocal .dn
      (frame .enum 0 ([1#14, 0#14] ++ toWords Config.uid.toNat 4))
    let no := (rg.enumNo + 1) % 16384
    let ended (t : State) (dMax uMin : Nat) : Prop :=
      t.dev.rg.enumPhase = .idle ∧ t.dev.rg.dMax = dMax ∧ t.dev.rg.uMin = uMin ∧ t.dev.rg.enumNo = no
      ∧ t.dev.rg.mapped = true ∧ t.dev.rg.nodeId = rg.nodeId
      ∧ (rg.numbered = true → (t.dev.link d.outDown).locals = (d.link d.outDown).locals
        ++ [{ frame .ringmap rg.nodeId [wd dMax, wd uMin, wd no, 0#14] with bcast := true }])
    (d.enumReady = true → exec (.enumerationStart dt) s = .next (s.withDev begun))
    ∧ (d.enumReady = false → exec (.enumerationStart dt) s = .next (s.withDev d))
    ∧ (d.isAnchor = true → rg.enumPhase = .down ∨ rg.enumPhase = .up →
      rg.enumAt + 1000000000 ≤ d.now → exec (.enumRestartTimeout dt) s = .next (s.withDev begun))
    ∧ (d.isAnchor = false ∨ d.now < rg.enumAt + 1000000000
      ∨ (rg.enumPhase ≠ .down ∧ rg.enumPhase ≠ .up) → exec (.enumRestartTimeout dt) s = .next (s.withDev d))
    ∧ (∀ id dir uid, rg.enumHeld = some (id, dir, uid) → rg.enumAt + 100000000 ≤ d.now →
      exec (.enumHoldTimeout dt) s = .next (s.withDev ({ d with rg := { rg with enumHeld := none } }.queueLocal
        (if dir = 0 then d.logical .up else d.logical .dn)
        (frame .enumEnd rg.nodeId [wd rg.nodeId, wd dir, 0#14, 0#14]))))
    ∧ (rg.enumHeld = none ∨ d.now < rg.enumAt + 100000000 → exec (.enumHoldTimeout dt) s = .next (s.withDev d))
    ∧ (s.frameIn dt l bs .enum f seq →
      let id := w 0 % 1024
      let dir := w 1 % 2
      let uid := ofWords ((f.payload.drop 2).take 4)
      let next := if dir = 0 then id + 1 else id - 1
      let last := if dir = 0 then id = 1023 else id ≤ rg.dMax + 1
      let out := (d.link l.other).state
      (d.isAnchor = false → ∃ t, exec (.enum dt l bs) s = .next t ∧ t.pending = s.pending
        ∧ t.dev.rg.nodeId = id ∧ t.dev.rg.numbered = true ∧ t.dev.rg.gotId = true
        ∧ (t.dev.rg.swapped = true ↔ (dir = 0 ∧ l = .dn) ∨ (dir = 1 ∧ l = .up))
        ∧ (¬ last → out = .active → (t.dev.link l.other).locals
            = (d.link l.other).locals ++ [frame .enum id ([wd next, wd dir] ++ toWords uid 4)])
        ∧ (¬ last → out = .training → t.dev.rg.enumHeld = some (next, dir, uid) ∧ t.dev.rg.enumAt = d.now)
        ∧ (last ∨ (out ≠ .active ∧ out ≠ .training) → (t.dev.link l).locals
            = (d.link l).locals ++ [frame .enumEnd id [wd id, wd dir, 0#14, 0#14]])
        ∧ t.dev = { d with rg := t.dev.rg, lb := t.dev.lb })
      ∧ (d.isAnchor = true →
        (uid < Config.uid.toNat → ∃ t, exec (.enum dt l bs) s = .next t ∧ t.pending = s.pending
          ∧ t.dev.rg.conflict = true ∧ t.dev.rg.enumPhase = .idle ∧ t.dev.rg.nodeId = id ∧ t.dev.isAnchor = false)
        ∧ (uid = Config.uid.toNat → dir = 0 → l = .up → rg.enumPhase = .down → ∃ t, exec (.enum dt l bs) s = .next t
          ∧ t.pending = s.pending ∧ ended t (id - 1) 1024)
        ∧ (Config.uid.toNat < uid ∨ (uid = Config.uid.toNat ∧ (dir = 1 ∨ l = .dn ∨ rg.enumPhase ≠ .down)) →
          exec (.enum dt l bs) s = .next (s.withDev (s.heard dt l f seq)))))
    ∧ (s.frameIn dt l bs .enumEnd f seq →
      (d.isAnchor = false → exec (.enumEnd dt l bs) s = .next (s.withDev
        ((s.heard dt l f seq).queueLocal (if w 1 % 2 = 0 then d.logical .up else d.logical .dn)
          (frame .enumEnd rg.nodeId [wd (w 0), wd (w 1 % 2), 0#14, 0#14]))))
      ∧ (d.isAnchor = true → w 1 % 2 = 0 → rg.enumPhase = .down → ∃ t, exec (.enumEnd dt l bs) s = .next t
        ∧ t.pending = s.pending
        ∧ (rg.up.state = .active → t.dev.rg.enumPhase = .up
          ∧ t.dev.rg.enumDMax = (if w 0 = 0x3FFF then 0 else w 0) ∧ t.dev.rg.enumAt = d.now
          ∧ t.dev.rg.up.locals
            = rg.up.locals ++ [frame .enum rg.nodeId ([1023#14, 1#14] ++ toWords Config.uid.toNat 4)])
        ∧ (rg.up.state ≠ .active → ended t (if w 0 = 0x3FFF then 0 else w 0) 1024))
      ∧ (d.isAnchor = true → w 1 % 2 = 1 → rg.enumPhase = .up →
        ∃ t, exec (.enumEnd dt l bs) s = .next t ∧ t.pending = s.pending
        ∧ ended t rg.enumDMax (if w 0 = 0x3FFF then 1024 else w 0)))
    ∧ (s.frameAll dt l bs .ringmap f seq → ∃ t, exec (.ringmap dt l bs) s = .next t ∧ t.pending = s.pending
      ∧ t.dev.rg.dMax = w 0 ∧ t.dev.rg.uMin = w 1 ∧ t.dev.rg.enumNo = w 2 ∧ t.dev.rg.mapped = true
      ∧ t.dev.rg.numbered = rg.gotId ∧ t.dev.rg.nodeId = rg.nodeId
      ∧ t.dev = { d with rg := t.dev.rg, ev := t.dev.ev, lb := t.dev.lb })
    ∧ (s.frameAll dt l bs .fold f seq → ∃ t, exec (.fold dt l bs) s = .next t ∧ t.pending = s.pending
      ∧ t.dev.rg.breaks = (if w 1 = 0 then (if w 0 ∈ rg.breaks ∨ 8 ≤ rg.breaks.length then rg.breaks
        else rg.breaks ++ [w 0]) else rg.breaks.filter (· != w 0))
      ∧ t.dev = { d with rg := t.dev.rg, ks := t.dev.ks, ev := t.dev.ev, lb := t.dev.lb })

/-- R366, R376, R377, R411 to R415: REP, BELAY, QUERY, TREP, QNONE and BELAY_WAIT_TIMEOUT. -/
def Obligations.RingRecords : Prop :=
  ∀ (s : State) (dt : Nat) (l : Link) (bs : List Byte) (f : Frame) (fseq : Nat), s.timed dt →
    let d := s.after dt
    let e := s.heard dt l f fseq
    let ws := f.payload
    let w := fun i => (ws.getD i 0#14).toNat
    let seq := ofWords (ws.take 2)
    let src := f.src
    (s.frameHere dt l bs .rep f fseq → f.reply = false →
      let index := w 2
      let total := w 3
      let data := ws.drop 4
      let room := d.rg.gWords - 4 - 140 * index
      let fits := (data.drop room).length ≤ 3 ∧ ∀ x ∈ data.drop room, x = 0#14
      let part := data.take room
      let heads := (e.guestHeads e.guestSlots).2
      let read := (e.guestHeads e.guestSlots).1
      let belay : Frame := { typ := .belay, src := d.rg.nodeId, dst := src, hops := 0, bcast := false, reply := false,
                             payload := padWords (twoWords seq) }
      let taken (t : State) (a : Nat) : Prop :=
        let at' := a + 4 + 140 * index
        (fits → (∀ i, i < part.length → t.dev.rawGet (at' + i) = encodeWord (part.getD i 0#14))
          ∧ (total ≤ index + 1 → t.dev.rawGet (a + 3) = encodeWord 2#14 ∧ (∀ x ∈ t.dev.rg.filling, x.slot ≠ a)
            ∧ (t.dev.link d.outDown).locals = (e.link d.outDown).locals ++ [belay])
          ∧ (index + 1 < total → { slot := a, src := src, seq := seq, next := index + 1 } ∈ t.dev.rg.filling)
          ∧ t.dev.rg.repRej = d.rg.repRej)
        ∧ (¬ fits → t.dev.rawGet (a + 3) = encodeWord 0#14 ∧ (∀ x ∈ t.dev.rg.filling, x.slot ≠ a)
          ∧ t.dev.rg.repRej = min 16383 (d.rg.repRej + 1))
        ∧ (∀ b, b < a ∨ (a + 4 ≤ b ∧ b < at') ∨ at' + part.length ≤ b → t.dev.rawGet b = d.rawGet b)
      (index = 0 → pickGuest heads d.rg.guestPtr src seq = none → exec (.rep dt l bs) s = .next (s.withDev read))
      ∧ (∀ a ptr, index = 0 → pickGuest heads d.rg.guestPtr src seq = some (a, ptr) → Memory.wf d.ar.mem = true →
          (∀ b, a ≤ b → b < a + 4 + part.length → d.writeHeld b = false) →
        ∃ t, exec (.rep dt l bs) s = .next t ∧ t.pending = s.pending ∧ t.dev.rg.guestPtr = ptr
          ∧ t.dev.rawGet a = encodeWord (wd src) ∧ t.dev.rawGet (a + 1) = encodeWord (wordOf seq 0)
          ∧ t.dev.rawGet (a + 2) = encodeWord (wordOf seq 1)
          ∧ (fits → 1 < total → t.dev.rawGet (a + 3) = encodeWord 1#14) ∧ taken t a)
      ∧ (index ≠ 0 → (∀ x ∈ d.rg.filling, ¬ (x.src = src ∧ x.seq = seq ∧ x.next = index)) →
        exec (.rep dt l bs) s = .next (s.withDev e))
      ∧ (∀ x, index ≠ 0 → d.rg.filling.find? (fun x => x.src == src && x.seq == seq && x.next == index) = some x →
          Memory.wf d.ar.mem = true → (∀ b, x.slot + 3 ≤ b → b < x.slot + 4 + 140 * index + part.length → d.writeHeld b = false) →
        ∃ t, exec (.rep dt l bs) s = .next t ∧ t.pending = s.pending ∧ t.dev.rg.guestPtr = d.rg.guestPtr ∧ taken t x.slot))
    ∧ (s.frameHere dt l bs .belay f fseq →
      (∀ i m, d.slotOfSeq seq = some i → d.team.idxOf? src = some m → (d.slotRec i).member m ≠ .belayed →
        ∃ t, exec (.belay dt l bs) s = .next t ∧ t.pending = s.pending ∧ (t.dev.slotRec i).member m = .belayed
          ∧ (∀ k, k ≠ m → (t.dev.slotRec i).member k = (d.slotRec i).member k)
          ∧ (t.dev.slotRec i).belays = (t.dev.slotRec i).members.count .belayed
          ∧ (t.dev.slotRec i).seq = (d.slotRec i).seq
          ∧ (t.dev.slotRec i).state = (if (d.slotRec i).state = .local' ∧ (t.dev.slotRec i).belays = d.sealedHold.rope
            then .roped else (d.slotRec i).state)
          ∧ (∀ k, k ≠ i → t.dev.slotRec k = d.slotRec k))
      ∧ (∀ i m, d.slotOfSeq seq = some i → d.team.idxOf? src = some m → (d.slotRec i).member m = .belayed →
        exec (.belay dt l bs) s = .next (s.withDev e))
      ∧ (d.slotOfSeq seq = none ∨ d.team.idxOf? src = none → exec (.belay dt l bs) s = .next (s.withDev e)))
    ∧ (s.frameHere dt l bs .query f fseq → ∃ t sent, exec (.query dt l bs) s = .next t ∧ t.pending = s.pending
      ∧ (t.dev.link d.outDown).locals = (d.link d.outDown).locals ++ sent
      ∧ (∀ x ∈ sent, x.src = d.rg.nodeId ∧ x.dst = src ∧ x.bcast = false)
      ∧ t.dev.sameMemory d
      ∧ (w 0 = 0 →
        let read := (e.guestHeads e.guestSlots).1
        let heads := (e.guestHeads e.guestSlots).2
        let holds := fun h : GuestHead => h.state == 2 && h.src == src && h.seq == ofWords ((ws.drop 1).take 2)
        (∀ h, heads.find? holds = some h → sent.length = repCount (read.copyWords h.slot).2
          ∧ (∀ x ∈ sent, x.typ = .rep ∧ x.reply = true)
          ∧ sent.map (fun x => ofWords (x.payload.take 2)) = sent.map fun _ => ofWords ((ws.drop 1).take 2))
        ∧ (heads.find? holds = none → sent.map Frame.typ = [.qnone]))
      ∧ (w 0 ≠ 0 →
        let heads := (e.tallyHeads e.tallyGuests).2
        let holds := fun h : TallyHead => h.used && h.who == wd (w 1 % 16 + 16 * src)
        (∀ h, heads.find? holds = some h → sent.length = 1 ∧ ∀ x ∈ sent, x.typ = .trep ∧ x.reply = true)
        ∧ (heads.find? holds = none → sent.map Frame.typ = [.qnone])))
    ∧ (s.frameHere dt l bs .trep f fseq →
      (f.reply = true → src ∉ d.team → exec (.trep dt l bs) s = .next (s.withDev e))
      ∧ (f.reply = true → src ∈ d.team → exec (.trep dt l bs) s = .next (s.withDev { e with ks := { d.ks with
          recover := d.ks.recover.map fun r => if w 1 % 16 = r.tally ∧ ∀ x ∈ r.replicas, x.node ≠ src then
            { r with replicas := r.replicas ++ [{ node := src, words := ws }] } else r } }))
      ∧ (f.reply = false →
        let read := (e.tallyHeads e.tallyGuests).1
        let heads := (e.tallyHeads e.tallyGuests).2
        let same := heads.find? fun h => h.used && h.who == ws.getD 1 0#14
        let free := heads.find? fun h => !h.used
        (heads = [] → exec (.trep dt l bs) s = .next (s.withDev read))
        ∧ (∀ h, same = some h → replicaValue ws < h.value → exec (.trep dt l bs) s = .next (s.withDev
            { read with ks := { d.ks with guestRej := min 16383 (d.ks.guestRej + 1) } }))
        ∧ (∀ h, (same = some h ∧ h.value ≤ replicaValue ws) ∨ (same = none ∧ free = some h)
              ∨ (same = none ∧ free = none ∧ h ∈ heads ∧ (∀ k ∈ heads, h.tick ≤ k.tick)
                ∧ ∀ k, heads.find? (fun k => k.tick == h.tick) = some k → k = h) → Memory.wf d.ar.mem = true →
            (∀ b, h.slot ≤ b → b < h.slot + 128 → d.writeHeld b = false) →
          ∃ t, exec (.trep dt l bs) s = .next t ∧ t.pending = s.pending
            ∧ (∀ i, i < 92 → i < ws.length → t.dev.rawGet (h.slot + i) = encodeWord (ws.getD i 0#14))
            ∧ (∀ b, b < h.slot ∨ h.slot + 128 ≤ b → t.dev.rawGet b = d.rawGet b))))
    ∧ (s.frameHere dt l bs .qnone f fseq →
      (d.ks.repair = none ∨ w 0 ≠ 0 → exec (.qnone dt l bs) s = .next (s.withDev e))
      ∧ (∀ r, d.ks.repair = some r → ws.getD 0 0#14 = 0#14 → d.team[r.member]? = some src →
          ofWords ((ws.drop 1).take 2) = (d.slotRec r.slot).seq →
        ∃ t, exec (.qnone dt l bs) s = .next t ∧ t.pending = s.pending
          ∧ t.dev.ks.repair = (d.team[r.member + 1]?).map (fun _ =>
            { slot := r.slot, member := r.member + 1, tick := d.ck.tick })))
    ∧ (∀ m : Fin 4,
      let late : Nat → Prop := fun i => i < d.ks.slots
        ∧ ∃ k, (d.slotRec i).member m = .await k ∧ k + 64 ≤ d.ck.tick
      ((∀ i, ¬ late i) → exec (.belayWaitTimeout dt m) s = .next (s.withDev d))
      ∧ ((∃ i, late i) → ∃ i, late i ∧ (∀ k, late k → (d.slotRec i).seq ≤ (d.slotRec k).seq)
        ∧ ∃ t, exec (.belayWaitTimeout dt m) s = .next t ∧ t.pending = s.pending
          ∧ (i < d.ks.recs.length → (t.dev.slotRec i).member m = .wait)
          ∧ (∀ k, k ≠ i → t.dev.slotRec k = d.slotRec k)
          ∧ t.dev.rg.repRetry = min 16383 (d.rg.repRetry + 1)
          ∧ t.dev = { d with ks := { d.ks with recs := t.dev.ks.recs }, rg := t.dev.rg }))

/-- R249, R283, R416 to R418, R425, R427 to R429: SEMCLAIM, SEMREL, SEMSTATE, PEER, DELIV, KEEP and KEEP_SEND. -/
def Obligations.RingServices : Prop :=
  ∀ (s : State) (dt : Nat) (l : Link) (bs : List Byte) (f : Frame) (seq : Nat), s.timed dt →
    let d := s.after dt
    let e := s.heard dt l f seq
    let w := fun i => (f.payload.getD i 0#14).toNat
    let src := f.src
    let n := w 0 % 16
    let who := w 0 / 16 % 4
    (s.frameHere dt l bs .semclaim f seq →
      let age := (d.ck.tick + 2 ^ 28 - ofWords ((f.payload.drop 1).take 2)) % 2 ^ 28
      (d.isAnchor = false → exec (.semclaim dt l bs) s = .next (s.withDev e))
      ∧ (d.isAnchor = true → 2 < age → age < 2 ^ 27 → exec (.semclaim dt l bs) s = .next (s.withDev
        { e with rg := { e.rg with semStale := min 16383 (d.rg.semStale + 1) } }))
      ∧ (d.isAnchor = true → age ≤ 2 ∨ 2 ^ 27 ≤ age → n < d.cm.semR.length → src ≠ d.rg.nodeId →
        let now : SemRing := if (d.semR n).party = none then
          { d.semR n with node := src, party := Party.ofCode who } else d.semR n
        let answer : Frame := { typ := .semstate, src := d.rg.nodeId, dst := 0, hops := 0, bcast := true, reply := false,
                                payload := padWords (semstateWords n now src who) }
        ∃ t, exec (.semclaim dt l bs) s = .next t
        ∧ t.pending = s.pending ∧ t.dev.semR n = now ∧ (∀ k, k ≠ n → t.dev.semR k = d.semR k)
        ∧ (t.dev.link d.outDown).locals = (d.link d.outDown).locals ++ [answer]))
    ∧ (s.frameHere dt l bs .semrel f seq →
      let x := d.semR n
      (d.isAnchor = false → exec (.semrel dt l bs) s = .next (s.withDev e))
      ∧ (d.isAnchor = true → n < d.cm.semR.length → x.party ≠ none → partyNo x.party = who → x.node = src →
        ∃ t, exec (.semrel dt l bs) s = .next t
        ∧ t.pending = s.pending ∧ t.dev.semR n = { node := 0, party := none, broken := (w 0).testBit 6 }
        ∧ (∀ k, k ≠ n → t.dev.semR k = d.semR k))
      ∧ (d.isAnchor = true → x.party = none ∨ partyNo x.party ≠ who ∨ x.node ≠ src →
        exec (.semrel dt l bs) s = .next (s.withDev e)))
    ∧ (s.frameAll dt l bs .semstate f seq → n < d.cm.semR.length → ∃ t, exec (.semstate dt l bs) s = .next t
      ∧ t.pending = s.pending ∧ (∀ k, k ≠ n → t.dev.semR k = d.semR k)
      ∧ (d.claimOf n ≠ none ∨ w 1 ≠ d.rg.nodeId → t.dev.semR n
        = { node := w 1, party := Party.ofCode (w 2 % 4), broken := (w 2).testBit 2 })
      ∧ (∀ c, d.claimOf n = some c → w 3 = d.rg.nodeId → w 4 = c.party.code → t.dev.claimOf n = none)
      ∧ (∀ y, d.claimOf n = none → w 1 = d.rg.nodeId → w 3 = d.rg.nodeId → Party.ofCode (w 2 % 4) = some y →
          ¬ ((d.semR n).party = some y ∧ (d.semR n).node = w 1) →
        t.dev.semR n = { node := 0, party := none, broken := false }))
    ∧ (s.frameHere dt l bs .peer f seq →
      let msg : PeerMsg := { port := if w 0 % 2 = 0 then .a else .b, src := src, words := (f.payload.drop 2).take (w 1) }
      let answer : Frame := { typ := .deliv, src := d.rg.nodeId, dst := src, hops := 0, bcast := false,
                              reply := false, payload := padWords [0#14] }
      ∃ t, exec (.peer dt l bs) s = .next t ∧ t.pending = s.pending
        ∧ (t.dev.link d.outDown).locals = (d.link d.outDown).locals ++ [answer]
        ∧ (d.pl.inbox.length < 8 → t.dev.pl.inbox = d.pl.inbox ++ [msg]
          ∧ t.dev.pl.woken = true ∧ t.dev.pl.peerDrop = d.pl.peerDrop)
        ∧ (8 ≤ d.pl.inbox.length → t.dev.pl
          = { d.pl with peerDrop := min 16383 (d.pl.peerDrop + 1) }))
    ∧ (s.frameHere dt l bs .deliv f seq →
      ((∀ x ∈ d.rg.peers, x.2.1 ≠ src) → exec (.deliv dt l bs) s = .next (s.withDev e))
      ∧ (∀ x, d.rg.peers.find? (fun x => x.2.1 == src) = some x → ∃ t, exec (.deliv dt l bs) s = .next t
        ∧ t.pending = s.pending ∧ t.dev.rg.peers = d.rg.peers.erase x
        ∧ (∀ c, d.cmd x.1 = some c → c.op = 0x0040 → t.dev.cmd x.1 = none)))
    ∧ (s.frameAll dt l bs .keep f seq → ∃ t, exec (.keep dt l bs) s = .next t ∧ t.pending = s.pending
      ∧ t.dev.rg.keepRx = min 16383 (d.rg.keepRx + 1)
      ∧ (w 0 = 0 → t.dev.rg.tLast = d.rg.tLast ∧ t.dev.rg.agreed = d.rg.agreed)
      ∧ (w 0 ≠ 0 → t.dev.rg.tLast = d.ck.tick ∧ t.dev.rg.agreed = false)
      ∧ t.dev = { d with rg := t.dev.rg, lb := t.dev.lb })
    ∧ (d.taskNow .keepAlive = true → d.originates = true → d.keepDue = true →
      let reasons := [wd d.rg.why, wd d.rg.keepMs] ++ toWords (d.ck.tick % 2 ^ 28) 2
      let keep : Frame := { typ := .keep, src := d.rg.nodeId, dst := 0, hops := 0, bcast := true, reply := false,
                            payload := padWords reasons }
      ∃ t, exec (.keepSend dt) s = .next t ∧ t.pending = s.pending ∧ t.dev.rg.lastKeep = some d.ck.tick
        ∧ t.dev.rg.whyChanged = false
        ∧ (d.rg.why ≠ 0 → t.dev.rg.tLast = d.ck.tick ∧ t.dev.rg.agreed = false)
        ∧ (t.dev.link d.outDown).locals = (d.link d.outDown).locals ++ [keep]
        ∧ t.dev = { d with rg := t.dev.rg })
    ∧ (d.taskNow .keepAlive = false ∨ d.originates = false ∨ d.keepDue = false →
      exec (.keepSend dt) s = .next (s.withDev d))

/-! ### The sleeping ring -/

/-- R149, R435, R438 to R440, R442: PASS_ADDRESSED_FRAME, PASS_TO_LISTEN, BEACON_DETECTED, BEACON_START and BEACON_DRIVE_END. That two
sources of one slot are of one always-on clock cycle is the model's (log entry 79). -/
def Obligations.SleepingRing : Prop :=
  ∀ (s : State) (dt : Nat) (l : Link) (bs : List Byte), s.dev.pw.powered = true →
    let d := s.after dt
    let x := d.link l
    let until' := d.now + d.rg.wakeMs * 1000000
    let enabled := d.pw.wakeEn.testBit (if d.logical l = .up then 1 else 2)
    let source : WakeSrc := if d.logical l = .up then .up else .dn
    let rank : WakeSrc → Nat := fun y => match y with
      | .on => 0 | .wakePin => 1 | .up => 2 | .dn => 3 | .portCs => 4 | _ => 6
    let mine := ∃ f seq, readFrame bs = .frame f seq ∧ d.rg.numbered = true ∧ f.bcast = false ∧ f.dst = d.rg.nodeId
    let wakes (e : Dev) (t : State) : Prop := t.pending = s.pending ∧ t.dev.pw.mode = .wake ∧ t.dev.pw.wakeSrc = source
      ∧ t.dev.pw.shortWake = true
      ∧ t.dev = { e.wakeLinks with pw := t.dev.pw, pl := { d.pl with nonce := none }, ev := t.dev.ev, lb := t.dev.lb }
    (d.pw.mode ≠ .retain →
      exec (.passToListen dt) s = .next (s.withDev d)
      ∧ (d.wakingNow = false →
        exec (.passAddressedFrame dt l bs) s = .next (s.withDev d) ∧ exec (.beaconDetected dt l) s = .next (s.withDev d))
      ∧ (d.wakingNow = true → d.rg.wasPass = true → mine → enabled = true → d.pw.wakeSrc ≠ .portCs →
        exec (.passAddressedFrame dt l bs) s = .next (s.withDev (if rank source < rank d.pw.wakeSrc then
          { d with pw := { d.pw with wakeSrc := source, wakePort := .a } } else d)))
      ∧ (d.wakingNow = true → d.rg.wasPass = true → exec (.beaconDetected dt l) s
        = .next (s.withDev (d.modLink l.other fun y => { y with beacon := some until' })))
      ∧ (d.wakingNow = true → d.rg.wasPass = false → enabled = false → exec (.beaconDetected dt l) s
        = .next (s.withDev (if d.relayedLately then d
          else d.modLink l.other fun y => { y with beacon := some until', lastRelay := some d.now }))))
    ∧ (d.pw.mode = .retain →
      (x.state ≠ .pass ∨ enabled = false ∨ ¬ mine → exec (.passAddressedFrame dt l bs) s = .next (s.withDev d))
      ∧ (x.state = .pass → enabled = true → mine → d.pw.retainEntry = false →
        ∃ t, exec (.passAddressedFrame dt l bs) s = .next t ∧ wakes d t)
      ∧ (x.state = .pass → enabled = true → mine → d.pw.retainEntry = true → d.pw.entryWake = none →
        exec (.passAddressedFrame dt l bs) s = .next (s.withDev
          { d with pw := { d.pw with entryWake := some source, wakePort := .a, entryAt := d.now } }))
      ∧ (∃ t, exec (.passToListen dt) s = .next t ∧ t.pending = s.pending
        ∧ (∀ k, t.dev.link k = { d.link k with
            state := if (d.link k).state = .pass then .listen else (d.link k).state })
        ∧ t.dev = { d with rg := { d.rg with up := t.dev.rg.up, dn := t.dev.rg.dn } })
      ∧ (x.state ≠ .listen → x.state ≠ .pass → exec (.beaconDetected dt l) s = .next (s.withDev d))
      ∧ (x.state = .pass → exec (.beaconDetected dt l) s
        = .next (s.withDev (d.modLink l.other fun y => { y with beacon := some until' })))
      ∧ (x.state = .listen →
        let late (y : LinkSt) : Prop := ∃ k, y.lastRelay = some k ∧ d.now ≤ k + 2 * (d.rg.wakeMs * 1000000)
        let e := if d.relayedLately then d
          else d.modLink l.other fun y => { y with beacon := some until', lastRelay := some d.now }
        (d.relayedLately = true ↔ late d.rg.up ∨ late d.rg.dn)
        ∧ (enabled = false → exec (.beaconDetected dt l) s = .next (s.withDev e))
        ∧ (enabled = true → d.pw.retainEntry = false → ∃ t, exec (.beaconDetected dt l) s = .next t ∧ wakes e t)))
    ∧ (d.pw.mode ≠ .replay →
      let may := d.pw.mode.beacons = true ∧ d.rg.why ≠ 0 ∧ x.state = .training ∧ x.step = 2
        ∧ x.stepAt + 10000000 ≤ d.now ∧ ∀ k, x.lastBeacon = some k → k + 100000000 ≤ d.now
      (may → ∃ t, exec (.beaconStart dt l) s = .next t ∧ t.pending = s.pending
        ∧ t.dev.link l = { x with beacon := some until', lastBeacon := some d.now }
        ∧ t.dev.link l.other = d.link l.other
        ∧ t.dev.rg.beacons = min 16383 (d.rg.beacons + 1)
        ∧ t.dev = { d with rg := { d.rg with up := t.dev.rg.up, dn := t.dev.rg.dn, beacons := t.dev.rg.beacons } })
      ∧ (¬ may → exec (.beaconStart dt l) s = .next (s.withDev d))
      ∧ (∀ k, x.beacon = some k → k ≤ d.now → exec (.beaconDriveEnd dt l) s
        = .next (s.withDev (d.modLink l fun x => { x with beacon := none })))
      ∧ (∀ k, x.beacon = some k → d.now < k → exec (.beaconDriveEnd dt l) s = .next (s.withDev d))
      ∧ (x.beacon = none → exec (.beaconDriveEnd dt l) s = .next (s.withDev d)))

/-! ### Time -/

/-- R22, R27, R164, R173, R178, R183, R232, R447: what a command finds is what time alone has brought. What falls due without a command of its
own is the model's list (DESIGN CHOICE, log entry 3). -/
def Obligations.TimePasses : Prop :=
  ∀ (s : State) (dt : Nat),
    let d := s.dev
    (d.pw.powered = false → s.after dt = d.pass dt)
    ∧ (d.pass dt = { d with now := d.now + dt, ck := { d.ck with slot := if d.ck.running = true then d.ck.slot + dt else d.ck.slot } })
    ∧ ((∀ x ∈ d.dues, d.now + dt < x.1) → s.after dt = d.pass dt)
    ∧ (d.pw.powered = true → ∀ t x, d.dues = [(t, x)] → d.now ≤ t → t ≤ d.now + dt →
      let e := (d.pass (t - d.now)).fallDue x
      s.after dt = e.pass (d.now + dt - e.now))
    ∧ (d.pw.powered = true → ∀ t x u y, d.dues = [(t, x), (u, y)] → d.now ≤ t → t ≤ u → u ≤ d.now + dt →
      let e := (d.pass (t - d.now)).fallDue x
      e.dues = [(u, y)] → let f := (e.pass (u - e.now)).fallDue y
      s.after dt = f.pass (d.now + dt - f.now))
end

