-- ==== Sys2Proof/Laws/State.lean ====
section
/-!
SUPPORT. What each update of the device leaves as it is, one lemma per field and update, and what does not depend on the
slots that pass.
-/
namespace Sys2Proof.Machine
open Sys2Proof

/-! ### States and parties -/

@[simp] theorem State.withDev_dev (s : State) (d : Dev) : (s.withDev d).dev = d := rfl
@[simp] theorem State.withDev_pending (s : State) (d : Dev) : (s.withDev d).pending = s.pending := rfl

/-- With VDD present a command's effect is its function on the device that time has brought. -/
theorem State.act_powered {s : State} (h : s.dev.pw.powered = true) (dt : Nat) (f : Dev → Dev) :
    s.act dt f = .next (s.withDev (f (s.after dt))) := by simp [State.act, h, State.withDev, State.after]

/-- Without VDD only time passes. -/
theorem State.act_unpowered {s : State} (h : s.dev.pw.powered = false) (dt : Nat) (f : Dev → Dev) :
    s.act dt f = .next (s.withDev (s.after dt)) := by simp [State.act, h, State.withDev, State.after]

/-- A command answers a next state, which keeps the queue. -/
theorem State.act_next (s : State) (dt : Nat) (f : Dev → Dev) :
    ∃ d, s.act dt f = .next (s.withDev d) := ⟨_, rfl⟩

/-- A command that acts in any case answers a next state, which keeps the queue. -/
theorem State.always_next (s : State) (dt : Nat) (f : Dev → Dev) :
    s.always dt f = .next (s.withDev (f (s.after dt))) := rfl

/-! ### Time passing -/
@[simp] theorem Dev.pass_now (d : Dev) (dt : Nat) : (d.pass dt).now = d.now + dt := rfl
@[simp] theorem Dev.pass_draws (d : Dev) (dt : Nat) : (d.pass dt).draws = d.draws := rfl
@[simp] theorem Dev.pass_pw (d : Dev) (dt : Nat) : (d.pass dt).pw = d.pw := rfl
@[simp] theorem Dev.pass_jt (d : Dev) (dt : Nat) : (d.pass dt).jt = d.jt := rfl
@[simp] theorem Dev.pass_cf (d : Dev) (dt : Nat) : (d.pass dt).cf = d.cf := rfl
@[simp] theorem Dev.pass_pa (d : Dev) (dt : Nat) : (d.pass dt).pa = d.pa := rfl
@[simp] theorem Dev.pass_pb (d : Dev) (dt : Nat) : (d.pass dt).pb = d.pb := rfl
@[simp] theorem Dev.pass_yA (d : Dev) (dt : Nat) : (d.pass dt).yA = d.yA := rfl
@[simp] theorem Dev.pass_yB (d : Dev) (dt : Nat) : (d.pass dt).yB = d.yB := rfl
@[simp] theorem Dev.pass_yP (d : Dev) (dt : Nat) : (d.pass dt).yP = d.yP := rfl
@[simp] theorem Dev.pass_ar (d : Dev) (dt : Nat) : (d.pass dt).ar = d.ar := rfl
@[simp] theorem Dev.pass_kl (d : Dev) (dt : Nat) : (d.pass dt).kl = d.kl := rfl
@[simp] theorem Dev.pass_cm (d : Dev) (dt : Nat) : (d.pass dt).cm = d.cm := rfl
@[simp] theorem Dev.pass_pl (d : Dev) (dt : Nat) : (d.pass dt).pl = d.pl := rfl
@[simp] theorem Dev.pass_ev (d : Dev) (dt : Nat) : (d.pass dt).ev = d.ev := rfl
@[simp] theorem Dev.pass_pk (d : Dev) (dt : Nat) : (d.pass dt).pk = d.pk := rfl
@[simp] theorem Dev.pass_ks (d : Dev) (dt : Nat) : (d.pass dt).ks = d.ks := rfl
@[simp] theorem Dev.pass_rg (d : Dev) (dt : Nat) : (d.pass dt).rg = d.rg := rfl
@[simp] theorem Dev.pass_hn (d : Dev) (dt : Nat) : (d.pass dt).hn = d.hn := rfl
@[simp] theorem Dev.pass_lb (d : Dev) (dt : Nat) : (d.pass dt).lb = d.lb := rfl
@[simp] theorem Dev.pass_ck_running (d : Dev) (dt : Nat) : (d.pass dt).ck.running = d.ck.running := rfl
@[simp] theorem Dev.pass_ck_tick (d : Dev) (dt : Nat) : (d.pass dt).ck.tick = d.ck.tick := rfl
@[simp] theorem Dev.pass_ck_curLen (d : Dev) (dt : Nat) : (d.pass dt).ck.curLen = d.ck.curLen := rfl
@[simp] theorem Dev.pass_ck_prevLen (d : Dev) (dt : Nat) : (d.pass dt).ck.prevLen = d.ck.prevLen := rfl
@[simp] theorem Dev.pass_ck_nextLen (d : Dev) (dt : Nat) : (d.pass dt).ck.nextLen = d.ck.nextLen := rfl
@[simp] theorem Dev.pass_ck_setTick (d : Dev) (dt : Nat) : (d.pass dt).ck.setTick = d.ck.setTick := rfl
@[simp] theorem Dev.pass_ck_deadline (d : Dev) (dt : Nat) : (d.pass dt).ck.deadline = d.ck.deadline := rfl
@[simp] theorem Dev.pass_ck_active (d : Dev) (dt : Nat) : (d.pass dt).ck.active = d.ck.active := rfl
@[simp] theorem Dev.pass_ck_holdover (d : Dev) (dt : Nat) : (d.pass dt).ck.holdover = d.ck.holdover := rfl
@[simp] theorem Dev.pass_ck_phase (d : Dev) (dt : Nat) : (d.pass dt).ck.phase = d.ck.phase := rfl
@[simp] theorem Dev.pass_ck_matched (d : Dev) (dt : Nat) : (d.pass dt).ck.matched = d.ck.matched := rfl
@[simp] theorem Dev.pass_ck_matchedNext (d : Dev) (dt : Nat) : (d.pass dt).ck.matchedNext = d.ck.matchedNext := rfl
@[simp] theorem Dev.pass_ck_missed (d : Dev) (dt : Nat) : (d.pass dt).ck.missed = d.ck.missed := rfl
@[simp] theorem Dev.pass_ck_refMiss (d : Dev) (dt : Nat) : (d.pass dt).ck.refMiss = d.ck.refMiss := rfl
@[simp] theorem Dev.pass_ck_clamped (d : Dev) (dt : Nat) : (d.pass dt).ck.clamped = d.ck.clamped := rfl
@[simp] theorem Dev.pass_ck_overruns (d : Dev) (dt : Nat) : (d.pass dt).ck.overruns = d.ck.overruns := rfl
@[simp] theorem Dev.pass_ck_ovrOwner (d : Dev) (dt : Nat) : (d.pass dt).ck.ovrOwner = d.ck.ovrOwner := rfl
@[simp] theorem Dev.pass_ck_ovrEntry (d : Dev) (dt : Nat) : (d.pass dt).ck.ovrEntry = d.ck.ovrEntry := rfl
@[simp] theorem Dev.pass_ck_ovrTt (d : Dev) (dt : Nat) : (d.pass dt).ck.ovrTt = d.ck.ovrTt := rfl
@[simp] theorem Dev.pass_ck_swFrom (d : Dev) (dt : Nat) : (d.pass dt).ck.swFrom = d.ck.swFrom := rfl
@[simp] theorem Dev.pass_ck_swTo (d : Dev) (dt : Nat) : (d.pass dt).ck.swTo = d.ck.swTo := rfl
@[simp] theorem Dev.pass_ck_swSlot (d : Dev) (dt : Nat) : (d.pass dt).ck.swSlot = d.ck.swSlot := rfl
@[simp] theorem Dev.pass_ck_swTick (d : Dev) (dt : Nat) : (d.pass dt).ck.swTick = d.ck.swTick := rfl
@[simp] theorem Dev.pass_ck_lenReg (d : Dev) (dt : Nat) : (d.pass dt).ck.lenReg = d.ck.lenReg := rfl
@[simp] theorem Dev.pass_ck_source (d : Dev) (dt : Nat) : (d.pass dt).ck.source = d.ck.source := rfl
@[simp] theorem Dev.pass_ck_tickOut (d : Dev) (dt : Nat) : (d.pass dt).ck.tickOut = d.ck.tickOut := rfl
@[simp] theorem Dev.pass_ck_slip (d : Dev) (dt : Nat) : (d.pass dt).ck.slip = d.ck.slip := rfl
@[simp] theorem Dev.pass_ck_refLoss (d : Dev) (dt : Nat) : (d.pass dt).ck.refLoss = d.ck.refLoss := rfl
@[simp] theorem Dev.pass_ck_intakeLead (d : Dev) (dt : Nat) : (d.pass dt).ck.intakeLead = d.ck.intakeLead := rfl
@[simp] theorem Dev.pass_ck_tickPin (d : Dev) (dt : Nat) : (d.pass dt).ck.tickPin = d.ck.tickPin := rfl
@[simp] theorem Dev.pass_ck_openEntries (d : Dev) (dt : Nat) : (d.pass dt).ck.openEntries = d.ck.openEntries := rfl
@[simp] theorem Dev.pass_ck_lastCheck (d : Dev) (dt : Nat) : (d.pass dt).ck.lastCheck = d.ck.lastCheck := rfl
@[simp] theorem Dev.pass_ck_slot (d : Dev) (dt : Nat) : (d.pass dt).ck.slot = d.ck.slot + (if d.ck.running then dt else 0) := rfl

/-! ### A change of one port -/
@[simp] theorem Dev.modPort_now (d : Dev) (p : Port) (f : PortSt → PortSt) : (d.modPort p f).now = d.now := by cases p <;> rfl
@[simp] theorem Dev.modPort_draws (d : Dev) (p : Port) (f : PortSt → PortSt) : (d.modPort p f).draws = d.draws := by cases p <;> rfl
@[simp] theorem Dev.modPort_pw (d : Dev) (p : Port) (f : PortSt → PortSt) : (d.modPort p f).pw = d.pw := by cases p <;> rfl
@[simp] theorem Dev.modPort_jt (d : Dev) (p : Port) (f : PortSt → PortSt) : (d.modPort p f).jt = d.jt := by cases p <;> rfl
@[simp] theorem Dev.modPort_ck (d : Dev) (p : Port) (f : PortSt → PortSt) : (d.modPort p f).ck = d.ck := by cases p <;> rfl
@[simp] theorem Dev.modPort_cf (d : Dev) (p : Port) (f : PortSt → PortSt) : (d.modPort p f).cf = d.cf := by cases p <;> rfl
@[simp] theorem Dev.modPort_yA (d : Dev) (p : Port) (f : PortSt → PortSt) : (d.modPort p f).yA = d.yA := by cases p <;> rfl
@[simp] theorem Dev.modPort_yB (d : Dev) (p : Port) (f : PortSt → PortSt) : (d.modPort p f).yB = d.yB := by cases p <;> rfl
@[simp] theorem Dev.modPort_yP (d : Dev) (p : Port) (f : PortSt → PortSt) : (d.modPort p f).yP = d.yP := by cases p <;> rfl
@[simp] theorem Dev.modPort_ar (d : Dev) (p : Port) (f : PortSt → PortSt) : (d.modPort p f).ar = d.ar := by cases p <;> rfl
@[simp] theorem Dev.modPort_kl (d : Dev) (p : Port) (f : PortSt → PortSt) : (d.modPort p f).kl = d.kl := by cases p <;> rfl
@[simp] theorem Dev.modPort_cm (d : Dev) (p : Port) (f : PortSt → PortSt) : (d.modPort p f).cm = d.cm := by cases p <;> rfl
@[simp] theorem Dev.modPort_pl (d : Dev) (p : Port) (f : PortSt → PortSt) : (d.modPort p f).pl = d.pl := by cases p <;> rfl
@[simp] theorem Dev.modPort_ev (d : Dev) (p : Port) (f : PortSt → PortSt) : (d.modPort p f).ev = d.ev := by cases p <;> rfl
@[simp] theorem Dev.modPort_pk (d : Dev) (p : Port) (f : PortSt → PortSt) : (d.modPort p f).pk = d.pk := by cases p <;> rfl
@[simp] theorem Dev.modPort_ks (d : Dev) (p : Port) (f : PortSt → PortSt) : (d.modPort p f).ks = d.ks := by cases p <;> rfl
@[simp] theorem Dev.modPort_rg (d : Dev) (p : Port) (f : PortSt → PortSt) : (d.modPort p f).rg = d.rg := by cases p <;> rfl
@[simp] theorem Dev.modPort_hn (d : Dev) (p : Port) (f : PortSt → PortSt) : (d.modPort p f).hn = d.hn := by cases p <;> rfl
@[simp] theorem Dev.modPort_lb (d : Dev) (p : Port) (f : PortSt → PortSt) : (d.modPort p f).lb = d.lb := by cases p <;> rfl
@[simp] theorem Dev.port_modPort (d : Dev) (p : Port) (f : PortSt → PortSt) : (d.modPort p f).port p = f (d.port p) := by cases p <;> rfl
@[simp] theorem Dev.port_modPort_other (d : Dev) (p : Port) (f : PortSt → PortSt) : (d.modPort p f).port p.other = d.port p.other := by cases p <;> rfl

/-! ### A change of one party -/
@[simp] theorem Dev.modParty_now (d : Dev) (y : Party) (f : PartySt → PartySt) : (d.modParty y f).now = d.now := by cases y <;> rfl
@[simp] theorem Dev.modParty_draws (d : Dev) (y : Party) (f : PartySt → PartySt) : (d.modParty y f).draws = d.draws := by cases y <;> rfl
@[simp] theorem Dev.modParty_pw (d : Dev) (y : Party) (f : PartySt → PartySt) : (d.modParty y f).pw = d.pw := by cases y <;> rfl
@[simp] theorem Dev.modParty_jt (d : Dev) (y : Party) (f : PartySt → PartySt) : (d.modParty y f).jt = d.jt := by cases y <;> rfl
@[simp] theorem Dev.modParty_ck (d : Dev) (y : Party) (f : PartySt → PartySt) : (d.modParty y f).ck = d.ck := by cases y <;> rfl
@[simp] theorem Dev.modParty_cf (d : Dev) (y : Party) (f : PartySt → PartySt) : (d.modParty y f).cf = d.cf := by cases y <;> rfl
@[simp] theorem Dev.modParty_pa (d : Dev) (y : Party) (f : PartySt → PartySt) : (d.modParty y f).pa = d.pa := by cases y <;> rfl
@[simp] theorem Dev.modParty_pb (d : Dev) (y : Party) (f : PartySt → PartySt) : (d.modParty y f).pb = d.pb := by cases y <;> rfl
@[simp] theorem Dev.modParty_ar (d : Dev) (y : Party) (f : PartySt → PartySt) : (d.modParty y f).ar = d.ar := by cases y <;> rfl
@[simp] theorem Dev.modParty_kl (d : Dev) (y : Party) (f : PartySt → PartySt) : (d.modParty y f).kl = d.kl := by cases y <;> rfl
@[simp] theorem Dev.modParty_cm (d : Dev) (y : Party) (f : PartySt → PartySt) : (d.modParty y f).cm = d.cm := by cases y <;> rfl
@[simp] theorem Dev.modParty_pl (d : Dev) (y : Party) (f : PartySt → PartySt) : (d.modParty y f).pl = d.pl := by cases y <;> rfl
@[simp] theorem Dev.modParty_ev (d : Dev) (y : Party) (f : PartySt → PartySt) : (d.modParty y f).ev = d.ev := by cases y <;> rfl
@[simp] theorem Dev.modParty_pk (d : Dev) (y : Party) (f : PartySt → PartySt) : (d.modParty y f).pk = d.pk := by cases y <;> rfl
@[simp] theorem Dev.modParty_ks (d : Dev) (y : Party) (f : PartySt → PartySt) : (d.modParty y f).ks = d.ks := by cases y <;> rfl
@[simp] theorem Dev.modParty_rg (d : Dev) (y : Party) (f : PartySt → PartySt) : (d.modParty y f).rg = d.rg := by cases y <;> rfl
@[simp] theorem Dev.modParty_hn (d : Dev) (y : Party) (f : PartySt → PartySt) : (d.modParty y f).hn = d.hn := by cases y <;> rfl
@[simp] theorem Dev.modParty_lb (d : Dev) (y : Party) (f : PartySt → PartySt) : (d.modParty y f).lb = d.lb := by cases y <;> rfl
@[simp] theorem Dev.party_modParty (d : Dev) (y : Party) (f : PartySt → PartySt) : (d.modParty y f).party y = f (d.party y) := by cases y <;> rfl

/-! ### A change of one event queue -/
@[simp] theorem Dev.modEvq_now (d : Dev) (y : Party) (f : EvQueue → EvQueue) : (d.modEvq y f).now = d.now := by cases y <;> rfl
@[simp] theorem Dev.modEvq_draws (d : Dev) (y : Party) (f : EvQueue → EvQueue) : (d.modEvq y f).draws = d.draws := by cases y <;> rfl
@[simp] theorem Dev.modEvq_pw (d : Dev) (y : Party) (f : EvQueue → EvQueue) : (d.modEvq y f).pw = d.pw := by cases y <;> rfl
@[simp] theorem Dev.modEvq_jt (d : Dev) (y : Party) (f : EvQueue → EvQueue) : (d.modEvq y f).jt = d.jt := by cases y <;> rfl
@[simp] theorem Dev.modEvq_ck (d : Dev) (y : Party) (f : EvQueue → EvQueue) : (d.modEvq y f).ck = d.ck := by cases y <;> rfl
@[simp] theorem Dev.modEvq_cf (d : Dev) (y : Party) (f : EvQueue → EvQueue) : (d.modEvq y f).cf = d.cf := by cases y <;> rfl
@[simp] theorem Dev.modEvq_pa (d : Dev) (y : Party) (f : EvQueue → EvQueue) : (d.modEvq y f).pa = d.pa := by cases y <;> rfl
@[simp] theorem Dev.modEvq_pb (d : Dev) (y : Party) (f : EvQueue → EvQueue) : (d.modEvq y f).pb = d.pb := by cases y <;> rfl
@[simp] theorem Dev.modEvq_yA (d : Dev) (y : Party) (f : EvQueue → EvQueue) : (d.modEvq y f).yA = d.yA := by cases y <;> rfl
@[simp] theorem Dev.modEvq_yB (d : Dev) (y : Party) (f : EvQueue → EvQueue) : (d.modEvq y f).yB = d.yB := by cases y <;> rfl
@[simp] theorem Dev.modEvq_yP (d : Dev) (y : Party) (f : EvQueue → EvQueue) : (d.modEvq y f).yP = d.yP := by cases y <;> rfl
@[simp] theorem Dev.modEvq_ar (d : Dev) (y : Party) (f : EvQueue → EvQueue) : (d.modEvq y f).ar = d.ar := by cases y <;> rfl
@[simp] theorem Dev.modEvq_kl (d : Dev) (y : Party) (f : EvQueue → EvQueue) : (d.modEvq y f).kl = d.kl := by cases y <;> rfl
@[simp] theorem Dev.modEvq_cm (d : Dev) (y : Party) (f : EvQueue → EvQueue) : (d.modEvq y f).cm = d.cm := by cases y <;> rfl
@[simp] theorem Dev.modEvq_pl (d : Dev) (y : Party) (f : EvQueue → EvQueue) : (d.modEvq y f).pl = d.pl := by cases y <;> rfl
@[simp] theorem Dev.modEvq_pk (d : Dev) (y : Party) (f : EvQueue → EvQueue) : (d.modEvq y f).pk = d.pk := by cases y <;> rfl
@[simp] theorem Dev.modEvq_ks (d : Dev) (y : Party) (f : EvQueue → EvQueue) : (d.modEvq y f).ks = d.ks := by cases y <;> rfl
@[simp] theorem Dev.modEvq_rg (d : Dev) (y : Party) (f : EvQueue → EvQueue) : (d.modEvq y f).rg = d.rg := by cases y <;> rfl
@[simp] theorem Dev.modEvq_hn (d : Dev) (y : Party) (f : EvQueue → EvQueue) : (d.modEvq y f).hn = d.hn := by cases y <;> rfl
@[simp] theorem Dev.modEvq_lb (d : Dev) (y : Party) (f : EvQueue → EvQueue) : (d.modEvq y f).lb = d.lb := by cases y <;> rfl
@[simp] theorem Dev.evq_modEvq (d : Dev) (y : Party) (f : EvQueue → EvQueue) : (d.modEvq y f).evq y = f (d.evq y) := by cases y <;> rfl

/-! ### A change of one channel -/
@[simp] theorem Dev.modChan_now (d : Dev) (k : Nat) (f : Chan → Chan) : (d.modChan k f).now = d.now := rfl
@[simp] theorem Dev.modChan_draws (d : Dev) (k : Nat) (f : Chan → Chan) : (d.modChan k f).draws = d.draws := rfl
@[simp] theorem Dev.modChan_pw (d : Dev) (k : Nat) (f : Chan → Chan) : (d.modChan k f).pw = d.pw := rfl
@[simp] theorem Dev.modChan_jt (d : Dev) (k : Nat) (f : Chan → Chan) : (d.modChan k f).jt = d.jt := rfl
@[simp] theorem Dev.modChan_ck (d : Dev) (k : Nat) (f : Chan → Chan) : (d.modChan k f).ck = d.ck := rfl
@[simp] theorem Dev.modChan_cf (d : Dev) (k : Nat) (f : Chan → Chan) : (d.modChan k f).cf = d.cf := rfl
@[simp] theorem Dev.modChan_pa (d : Dev) (k : Nat) (f : Chan → Chan) : (d.modChan k f).pa = d.pa := rfl
@[simp] theorem Dev.modChan_pb (d : Dev) (k : Nat) (f : Chan → Chan) : (d.modChan k f).pb = d.pb := rfl
@[simp] theorem Dev.modChan_yA (d : Dev) (k : Nat) (f : Chan → Chan) : (d.modChan k f).yA = d.yA := rfl
@[simp] theorem Dev.modChan_yB (d : Dev) (k : Nat) (f : Chan → Chan) : (d.modChan k f).yB = d.yB := rfl
@[simp] theorem Dev.modChan_yP (d : Dev) (k : Nat) (f : Chan → Chan) : (d.modChan k f).yP = d.yP := rfl
@[simp] theorem Dev.modChan_ar (d : Dev) (k : Nat) (f : Chan → Chan) : (d.modChan k f).ar = d.ar := rfl
@[simp] theorem Dev.modChan_kl (d : Dev) (k : Nat) (f : Chan → Chan) : (d.modChan k f).kl = d.kl := rfl
@[simp] theorem Dev.modChan_pl (d : Dev) (k : Nat) (f : Chan → Chan) : (d.modChan k f).pl = d.pl := rfl
@[simp] theorem Dev.modChan_ev (d : Dev) (k : Nat) (f : Chan → Chan) : (d.modChan k f).ev = d.ev := rfl
@[simp] theorem Dev.modChan_pk (d : Dev) (k : Nat) (f : Chan → Chan) : (d.modChan k f).pk = d.pk := rfl
@[simp] theorem Dev.modChan_ks (d : Dev) (k : Nat) (f : Chan → Chan) : (d.modChan k f).ks = d.ks := rfl
@[simp] theorem Dev.modChan_rg (d : Dev) (k : Nat) (f : Chan → Chan) : (d.modChan k f).rg = d.rg := rfl
@[simp] theorem Dev.modChan_hn (d : Dev) (k : Nat) (f : Chan → Chan) : (d.modChan k f).hn = d.hn := rfl
@[simp] theorem Dev.modChan_lb (d : Dev) (k : Nat) (f : Chan → Chan) : (d.modChan k f).lb = d.lb := rfl

/-! ### A change of one local semaphore -/
@[simp] theorem Dev.setSemL_now (d : Dev) (n : Nat) (x : SemLocal) : (d.setSemL n x).now = d.now := rfl
@[simp] theorem Dev.setSemL_draws (d : Dev) (n : Nat) (x : SemLocal) : (d.setSemL n x).draws = d.draws := rfl
@[simp] theorem Dev.setSemL_pw (d : Dev) (n : Nat) (x : SemLocal) : (d.setSemL n x).pw = d.pw := rfl
@[simp] theorem Dev.setSemL_jt (d : Dev) (n : Nat) (x : SemLocal) : (d.setSemL n x).jt = d.jt := rfl
@[simp] theorem Dev.setSemL_ck (d : Dev) (n : Nat) (x : SemLocal) : (d.setSemL n x).ck = d.ck := rfl
@[simp] theorem Dev.setSemL_cf (d : Dev) (n : Nat) (x : SemLocal) : (d.setSemL n x).cf = d.cf := rfl
@[simp] theorem Dev.setSemL_pa (d : Dev) (n : Nat) (x : SemLocal) : (d.setSemL n x).pa = d.pa := rfl
@[simp] theorem Dev.setSemL_pb (d : Dev) (n : Nat) (x : SemLocal) : (d.setSemL n x).pb = d.pb := rfl
@[simp] theorem Dev.setSemL_yA (d : Dev) (n : Nat) (x : SemLocal) : (d.setSemL n x).yA = d.yA := rfl
@[simp] theorem Dev.setSemL_yB (d : Dev) (n : Nat) (x : SemLocal) : (d.setSemL n x).yB = d.yB := rfl
@[simp] theorem Dev.setSemL_yP (d : Dev) (n : Nat) (x : SemLocal) : (d.setSemL n x).yP = d.yP := rfl
@[simp] theorem Dev.setSemL_ar (d : Dev) (n : Nat) (x : SemLocal) : (d.setSemL n x).ar = d.ar := rfl
@[simp] theorem Dev.setSemL_kl (d : Dev) (n : Nat) (x : SemLocal) : (d.setSemL n x).kl = d.kl := rfl
@[simp] theorem Dev.setSemL_pl (d : Dev) (n : Nat) (x : SemLocal) : (d.setSemL n x).pl = d.pl := rfl
@[simp] theorem Dev.setSemL_ev (d : Dev) (n : Nat) (x : SemLocal) : (d.setSemL n x).ev = d.ev := rfl
@[simp] theorem Dev.setSemL_pk (d : Dev) (n : Nat) (x : SemLocal) : (d.setSemL n x).pk = d.pk := rfl
@[simp] theorem Dev.setSemL_ks (d : Dev) (n : Nat) (x : SemLocal) : (d.setSemL n x).ks = d.ks := rfl
@[simp] theorem Dev.setSemL_rg (d : Dev) (n : Nat) (x : SemLocal) : (d.setSemL n x).rg = d.rg := rfl
@[simp] theorem Dev.setSemL_hn (d : Dev) (n : Nat) (x : SemLocal) : (d.setSemL n x).hn = d.hn := rfl
@[simp] theorem Dev.setSemL_lb (d : Dev) (n : Nat) (x : SemLocal) : (d.setSemL n x).lb = d.lb := rfl

/-! ### A change of one ring semaphore -/
@[simp] theorem Dev.setSemR_now (d : Dev) (n : Nat) (x : SemRing) : (d.setSemR n x).now = d.now := rfl
@[simp] theorem Dev.setSemR_draws (d : Dev) (n : Nat) (x : SemRing) : (d.setSemR n x).draws = d.draws := rfl
@[simp] theorem Dev.setSemR_pw (d : Dev) (n : Nat) (x : SemRing) : (d.setSemR n x).pw = d.pw := rfl
@[simp] theorem Dev.setSemR_jt (d : Dev) (n : Nat) (x : SemRing) : (d.setSemR n x).jt = d.jt := rfl
@[simp] theorem Dev.setSemR_ck (d : Dev) (n : Nat) (x : SemRing) : (d.setSemR n x).ck = d.ck := rfl
@[simp] theorem Dev.setSemR_cf (d : Dev) (n : Nat) (x : SemRing) : (d.setSemR n x).cf = d.cf := rfl
@[simp] theorem Dev.setSemR_pa (d : Dev) (n : Nat) (x : SemRing) : (d.setSemR n x).pa = d.pa := rfl
@[simp] theorem Dev.setSemR_pb (d : Dev) (n : Nat) (x : SemRing) : (d.setSemR n x).pb = d.pb := rfl
@[simp] theorem Dev.setSemR_yA (d : Dev) (n : Nat) (x : SemRing) : (d.setSemR n x).yA = d.yA := rfl
@[simp] theorem Dev.setSemR_yB (d : Dev) (n : Nat) (x : SemRing) : (d.setSemR n x).yB = d.yB := rfl
@[simp] theorem Dev.setSemR_yP (d : Dev) (n : Nat) (x : SemRing) : (d.setSemR n x).yP = d.yP := rfl
@[simp] theorem Dev.setSemR_ar (d : Dev) (n : Nat) (x : SemRing) : (d.setSemR n x).ar = d.ar := rfl
@[simp] theorem Dev.setSemR_kl (d : Dev) (n : Nat) (x : SemRing) : (d.setSemR n x).kl = d.kl := rfl
@[simp] theorem Dev.setSemR_pl (d : Dev) (n : Nat) (x : SemRing) : (d.setSemR n x).pl = d.pl := rfl
@[simp] theorem Dev.setSemR_ev (d : Dev) (n : Nat) (x : SemRing) : (d.setSemR n x).ev = d.ev := rfl
@[simp] theorem Dev.setSemR_pk (d : Dev) (n : Nat) (x : SemRing) : (d.setSemR n x).pk = d.pk := rfl
@[simp] theorem Dev.setSemR_ks (d : Dev) (n : Nat) (x : SemRing) : (d.setSemR n x).ks = d.ks := rfl
@[simp] theorem Dev.setSemR_rg (d : Dev) (n : Nat) (x : SemRing) : (d.setSemR n x).rg = d.rg := rfl
@[simp] theorem Dev.setSemR_hn (d : Dev) (n : Nat) (x : SemRing) : (d.setSemR n x).hn = d.hn := rfl
@[simp] theorem Dev.setSemR_lb (d : Dev) (n : Nat) (x : SemRing) : (d.setSemR n x).lb = d.lb := rfl

/-! ### A change of one link -/
@[simp] theorem Dev.modLink_now (d : Dev) (l : Link) (f : LinkSt → LinkSt) : (d.modLink l f).now = d.now := by cases l <;> rfl
@[simp] theorem Dev.modLink_draws (d : Dev) (l : Link) (f : LinkSt → LinkSt) : (d.modLink l f).draws = d.draws := by cases l <;> rfl
@[simp] theorem Dev.modLink_pw (d : Dev) (l : Link) (f : LinkSt → LinkSt) : (d.modLink l f).pw = d.pw := by cases l <;> rfl
@[simp] theorem Dev.modLink_jt (d : Dev) (l : Link) (f : LinkSt → LinkSt) : (d.modLink l f).jt = d.jt := by cases l <;> rfl
@[simp] theorem Dev.modLink_ck (d : Dev) (l : Link) (f : LinkSt → LinkSt) : (d.modLink l f).ck = d.ck := by cases l <;> rfl
@[simp] theorem Dev.modLink_cf (d : Dev) (l : Link) (f : LinkSt → LinkSt) : (d.modLink l f).cf = d.cf := by cases l <;> rfl
@[simp] theorem Dev.modLink_pa (d : Dev) (l : Link) (f : LinkSt → LinkSt) : (d.modLink l f).pa = d.pa := by cases l <;> rfl
@[simp] theorem Dev.modLink_pb (d : Dev) (l : Link) (f : LinkSt → LinkSt) : (d.modLink l f).pb = d.pb := by cases l <;> rfl
@[simp] theorem Dev.modLink_yA (d : Dev) (l : Link) (f : LinkSt → LinkSt) : (d.modLink l f).yA = d.yA := by cases l <;> rfl
@[simp] theorem Dev.modLink_yB (d : Dev) (l : Link) (f : LinkSt → LinkSt) : (d.modLink l f).yB = d.yB := by cases l <;> rfl
@[simp] theorem Dev.modLink_yP (d : Dev) (l : Link) (f : LinkSt → LinkSt) : (d.modLink l f).yP = d.yP := by cases l <;> rfl
@[simp] theorem Dev.modLink_ar (d : Dev) (l : Link) (f : LinkSt → LinkSt) : (d.modLink l f).ar = d.ar := by cases l <;> rfl
@[simp] theorem Dev.modLink_kl (d : Dev) (l : Link) (f : LinkSt → LinkSt) : (d.modLink l f).kl = d.kl := by cases l <;> rfl
@[simp] theorem Dev.modLink_cm (d : Dev) (l : Link) (f : LinkSt → LinkSt) : (d.modLink l f).cm = d.cm := by cases l <;> rfl
@[simp] theorem Dev.modLink_pl (d : Dev) (l : Link) (f : LinkSt → LinkSt) : (d.modLink l f).pl = d.pl := by cases l <;> rfl
@[simp] theorem Dev.modLink_ev (d : Dev) (l : Link) (f : LinkSt → LinkSt) : (d.modLink l f).ev = d.ev := by cases l <;> rfl
@[simp] theorem Dev.modLink_pk (d : Dev) (l : Link) (f : LinkSt → LinkSt) : (d.modLink l f).pk = d.pk := by cases l <;> rfl
@[simp] theorem Dev.modLink_ks (d : Dev) (l : Link) (f : LinkSt → LinkSt) : (d.modLink l f).ks = d.ks := by cases l <;> rfl
@[simp] theorem Dev.modLink_hn (d : Dev) (l : Link) (f : LinkSt → LinkSt) : (d.modLink l f).hn = d.hn := by cases l <;> rfl
@[simp] theorem Dev.modLink_lb (d : Dev) (l : Link) (f : LinkSt → LinkSt) : (d.modLink l f).lb = d.lb := by cases l <;> rfl
@[simp] theorem Dev.link_modLink (d : Dev) (l : Link) (f : LinkSt → LinkSt) : (d.modLink l f).link l = f (d.link l) := by cases l <;> rfl
@[simp] theorem Dev.link_modLink_other (d : Dev) (l : Link) (f : LinkSt → LinkSt) : (d.modLink l f).link l.other = d.link l.other := by cases l <;> rfl

/-! ### A local frame is queued -/
@[simp] theorem Dev.queueLocal_now (d : Dev) (l : Link) (f : Frame) : (d.queueLocal l f).now = d.now := by cases l <;> rfl
@[simp] theorem Dev.queueLocal_draws (d : Dev) (l : Link) (f : Frame) : (d.queueLocal l f).draws = d.draws := by cases l <;> rfl
@[simp] theorem Dev.queueLocal_pw (d : Dev) (l : Link) (f : Frame) : (d.queueLocal l f).pw = d.pw := by cases l <;> rfl
@[simp] theorem Dev.queueLocal_jt (d : Dev) (l : Link) (f : Frame) : (d.queueLocal l f).jt = d.jt := by cases l <;> rfl
@[simp] theorem Dev.queueLocal_ck (d : Dev) (l : Link) (f : Frame) : (d.queueLocal l f).ck = d.ck := by cases l <;> rfl
@[simp] theorem Dev.queueLocal_cf (d : Dev) (l : Link) (f : Frame) : (d.queueLocal l f).cf = d.cf := by cases l <;> rfl
@[simp] theorem Dev.queueLocal_pa (d : Dev) (l : Link) (f : Frame) : (d.queueLocal l f).pa = d.pa := by cases l <;> rfl
@[simp] theorem Dev.queueLocal_pb (d : Dev) (l : Link) (f : Frame) : (d.queueLocal l f).pb = d.pb := by cases l <;> rfl
@[simp] theorem Dev.queueLocal_yA (d : Dev) (l : Link) (f : Frame) : (d.queueLocal l f).yA = d.yA := by cases l <;> rfl
@[simp] theorem Dev.queueLocal_yB (d : Dev) (l : Link) (f : Frame) : (d.queueLocal l f).yB = d.yB := by cases l <;> rfl
@[simp] theorem Dev.queueLocal_yP (d : Dev) (l : Link) (f : Frame) : (d.queueLocal l f).yP = d.yP := by cases l <;> rfl
@[simp] theorem Dev.queueLocal_ar (d : Dev) (l : Link) (f : Frame) : (d.queueLocal l f).ar = d.ar := by cases l <;> rfl
@[simp] theorem Dev.queueLocal_kl (d : Dev) (l : Link) (f : Frame) : (d.queueLocal l f).kl = d.kl := by cases l <;> rfl
@[simp] theorem Dev.queueLocal_cm (d : Dev) (l : Link) (f : Frame) : (d.queueLocal l f).cm = d.cm := by cases l <;> rfl
@[simp] theorem Dev.queueLocal_pl (d : Dev) (l : Link) (f : Frame) : (d.queueLocal l f).pl = d.pl := by cases l <;> rfl
@[simp] theorem Dev.queueLocal_ev (d : Dev) (l : Link) (f : Frame) : (d.queueLocal l f).ev = d.ev := by cases l <;> rfl
@[simp] theorem Dev.queueLocal_pk (d : Dev) (l : Link) (f : Frame) : (d.queueLocal l f).pk = d.pk := by cases l <;> rfl
@[simp] theorem Dev.queueLocal_ks (d : Dev) (l : Link) (f : Frame) : (d.queueLocal l f).ks = d.ks := by cases l <;> rfl
@[simp] theorem Dev.queueLocal_hn (d : Dev) (l : Link) (f : Frame) : (d.queueLocal l f).hn = d.hn := by cases l <;> rfl
@[simp] theorem Dev.queueLocal_lb (d : Dev) (l : Link) (f : Frame) : (d.queueLocal l f).lb = d.lb := by cases l <;> rfl

/-! ### The pilot is woken -/
@[simp] theorem Dev.wakePilot_now (d : Dev)  : (d.wakePilot).now = d.now := rfl
@[simp] theorem Dev.wakePilot_draws (d : Dev)  : (d.wakePilot).draws = d.draws := rfl
@[simp] theorem Dev.wakePilot_pw (d : Dev)  : (d.wakePilot).pw = d.pw := rfl
@[simp] theorem Dev.wakePilot_jt (d : Dev)  : (d.wakePilot).jt = d.jt := rfl
@[simp] theorem Dev.wakePilot_ck (d : Dev)  : (d.wakePilot).ck = d.ck := rfl
@[simp] theorem Dev.wakePilot_cf (d : Dev)  : (d.wakePilot).cf = d.cf := rfl
@[simp] theorem Dev.wakePilot_pa (d : Dev)  : (d.wakePilot).pa = d.pa := rfl
@[simp] theorem Dev.wakePilot_pb (d : Dev)  : (d.wakePilot).pb = d.pb := rfl
@[simp] theorem Dev.wakePilot_yA (d : Dev)  : (d.wakePilot).yA = d.yA := rfl
@[simp] theorem Dev.wakePilot_yB (d : Dev)  : (d.wakePilot).yB = d.yB := rfl
@[simp] theorem Dev.wakePilot_yP (d : Dev)  : (d.wakePilot).yP = d.yP := rfl
@[simp] theorem Dev.wakePilot_ar (d : Dev)  : (d.wakePilot).ar = d.ar := rfl
@[simp] theorem Dev.wakePilot_kl (d : Dev)  : (d.wakePilot).kl = d.kl := rfl
@[simp] theorem Dev.wakePilot_cm (d : Dev)  : (d.wakePilot).cm = d.cm := rfl
@[simp] theorem Dev.wakePilot_ev (d : Dev)  : (d.wakePilot).ev = d.ev := rfl
@[simp] theorem Dev.wakePilot_pk (d : Dev)  : (d.wakePilot).pk = d.pk := rfl
@[simp] theorem Dev.wakePilot_ks (d : Dev)  : (d.wakePilot).ks = d.ks := rfl
@[simp] theorem Dev.wakePilot_rg (d : Dev)  : (d.wakePilot).rg = d.rg := rfl
@[simp] theorem Dev.wakePilot_hn (d : Dev)  : (d.wakePilot).hn = d.hn := rfl
@[simp] theorem Dev.wakePilot_lb (d : Dev)  : (d.wakePilot).lb = d.lb := rfl

/-! ### What does not depend on the slot -/
@[simp] theorem Dev.nearest_pass (d : Dev) (r : Int) (dt : Nat) : (d.pass dt).nearest r = d.nearest r := rfl
@[simp] theorem Dev.src_pass (d : Dev) (n : Nat) (dt : Nat) : (d.pass dt).src n = d.src n := rfl
@[simp] theorem Dev.modeAllows_pass (d : Dev) (op : Nat) (dt : Nat) : (d.pass dt).modeAllows op = d.modeAllows op := rfl
@[simp] theorem Dev.hostWaits_pass (d : Dev) (dt : Nat) : (d.pass dt).hostWaits = d.hostWaits := rfl
@[simp] theorem Dev.gateBusy_pass (d : Dev) (op : Nat) (dt : Nat) : (d.pass dt).gateBusy op = d.gateBusy op := rfl
@[simp] theorem Dev.returnFree_pass (d : Dev) (p : Port) (dt : Nat) : (d.pass dt).returnFree p = d.returnFree p := rfl
@[simp] theorem Dev.gateCode_pass (d : Dev) (p : Port) (ws : List Word) (dt : Nat) : (d.pass dt).gateCode p ws = d.gateCode p ws := rfl
@[simp] theorem Dev.exportWords_pass (d : Dev) (frozen : Bool) (seq : Nat) (es : List LogEntry) (dt : Nat) : (d.pass dt).exportWords frozen seq es = d.exportWords frozen seq es := rfl
@[simp] theorem Dev.pageFor_pass (d : Dev) (p : Port) (page : Nat) (dt : Nat) : (d.pass dt).pageFor p page = d.pageFor p page := rfl
@[simp] theorem Dev.destOk_pass (d : Dev) (p : Port) (a n : Nat) (dt : Nat) : (d.pass dt).destOk p a n = d.destOk p a n := rfl
@[simp] theorem Dev.replicaFits_pass (d : Dev) (t : Nat) (r : Replica) (dt : Nat) : (d.pass dt).replicaFits t r = d.replicaFits t r := rfl
@[simp] theorem Dev.windowSlots_pass (d : Dev) (c : Cmd) (dt : Nat) : (d.pass dt).windowSlots c = d.windowSlots c := rfl
@[simp] theorem Dev.policyOk_pass (d : Dev) (h : Hold) (a : Nat) (lone : Bool) (dt : Nat) : (d.pass dt).policyOk h a lone = d.policyOk h a lone := rfl
@[simp] theorem Dev.judge_pass (d : Dev) (p : Port) (a : Nat) (lone : Bool) (dt : Nat) : (d.pass dt).judge p a lone = d.judge p a lone := rfl
@[simp] theorem Dev.phys_pass (d : Dev) (p : Nat) (dt : Nat) : (d.pass dt).phys p = d.phys p := rfl
@[simp] theorem Dev.logicalPage_pass (d : Dev) (l : Nat) (dt : Nat) : (d.pass dt).logicalPage l = d.logicalPage l := rfl
@[simp] theorem Dev.storing_pass (d : Dev) (dt : Nat) : (d.pass dt).storing = d.storing := rfl
@[simp] theorem Dev.keelSilent_pass (d : Dev) (dt : Nat) : (d.pass dt).keelSilent = d.keelSilent := rfl
@[simp] theorem Dev.physFree_pass (d : Dev) (p : Nat) (dt : Nat) : (d.pass dt).physFree p = d.physFree p := rfl
@[simp] theorem Dev.freePages_pass (d : Dev) (dt : Nat) : (d.pass dt).freePages = d.freePages := rfl
@[simp] theorem Dev.validMap_pass (d : Dev) (dt : Nat) : (d.pass dt).validMap = d.validMap := rfl
@[simp] theorem Dev.retMapNow_pass (d : Dev) (dt : Nat) : (d.pass dt).retMapNow = d.retMapNow := rfl
@[simp] theorem Dev.bankRetNow_pass (d : Dev) (dt : Nat) : (d.pass dt).bankRetNow = d.bankRetNow := rfl
@[simp] theorem Dev.poolCalls_pass (d : Dev) (dt : Nat) : (d.pass dt).poolCalls = d.poolCalls := rfl
@[simp] theorem Dev.badPages_pass (d : Dev) (dt : Nat) : (d.pass dt).badPages = d.badPages := rfl
@[simp] theorem Dev.appendOf_pass (d : Dev) (page : Nat) (dt : Nat) : (d.pass dt).appendOf page = d.appendOf page := rfl
@[simp] theorem Dev.retireWaits_pass (d : Dev) (dt : Nat) : (d.pass dt).retireWaits = d.retireWaits := rfl
@[simp] theorem Dev.persistentPages_pass (d : Dev) (dt : Nat) : (d.pass dt).persistentPages = d.persistentPages := rfl
@[simp] theorem Dev.recallPointer_pass (d : Dev) (h : Hold) (dt : Nat) : (d.pass dt).recallPointer h = d.recallPointer h := rfl
@[simp] theorem Dev.holdFields_pass (d : Dev) (ws : List Word) (i : Nat) (dt : Nat) : (d.pass dt).holdFields ws i = d.holdFields ws i := rfl
@[simp] theorem Dev.rebuilt_pass (d : Dev) (ty : Nat) (ws : List Word) (dt : Nat) : (d.pass dt).rebuilt ty ws = d.rebuilt ty ws := rfl
@[simp] theorem Dev.cfgCrcNow_pass (d : Dev) (dt : Nat) : (d.pass dt).cfgCrcNow = d.cfgCrcNow := rfl
@[simp] theorem Dev.semL_pass (d : Dev) (n : Nat) (dt : Nat) : (d.pass dt).semL n = d.semL n := rfl
@[simp] theorem Dev.chan_pass (d : Dev) (k : Nat) (dt : Nat) : (d.pass dt).chan k = d.chan k := rfl
@[simp] theorem Dev.mbxRead_pass (d : Dev) (y : Party) (k off : Nat) (dt : Nat) : (d.pass dt).mbxRead y k off = d.mbxRead y k off := rfl
@[simp] theorem Dev.summary_pass (d : Dev) (x0 : Port) (dt : Nat) : (d.pass dt).summary x0 = d.summary x0 := rfl
@[simp] theorem Dev.wakeClosed_pass (d : Dev) (dt : Nat) : (d.pass dt).wakeClosed = d.wakeClosed := rfl
@[simp] theorem Dev.wakeSlots_pass (d : Dev) (dt : Nat) : (d.pass dt).wakeSlots = d.wakeSlots := rfl
@[simp] theorem Dev.region_pass (d : Dev) (a : Nat) (dt : Nat) : (d.pass dt).region a = d.region a := rfl
@[simp] theorem Dev.ttOf_pass (d : Dev) (x0 : TtName) (dt : Nat) : (d.pass dt).ttOf x0 = d.ttOf x0 := rfl
@[simp] theorem Dev.ownerAt_pass (d : Dev) (bank slot : Nat) (dt : Nat) : (d.pass dt).ownerAt bank slot = d.ownerAt bank slot := rfl
@[simp] theorem Dev.entry_pass (d : Dev) (e : Nat) (dt : Nat) : (d.pass dt).entry e = d.entry e := rfl
@[simp] theorem Dev.port_pass (d : Dev) (x0 : Port) (dt : Nat) : (d.pass dt).port x0 = d.port x0 := rfl
@[simp] theorem Dev.party_pass (d : Dev) (x0 : Party) (dt : Nat) : (d.pass dt).party x0 = d.party x0 := rfl
@[simp] theorem Dev.portServed_pass (d : Dev) (p : Port) (dt : Nat) : (d.pass dt).portServed p = d.portServed p := rfl
@[simp] theorem Dev.pilotRuns_pass (d : Dev) (dt : Nat) : (d.pass dt).pilotRuns = d.pilotRuns := rfl
@[simp] theorem Dev.partyActs_pass (d : Dev) (y : Party) (dt : Nat) : (d.pass dt).partyActs y = d.partyActs y := rfl
@[simp] theorem Dev.logRoom_pass (d : Dev) (dt : Nat) : (d.pass dt).logRoom = d.logRoom := rfl
@[simp] theorem Dev.emits_pass (d : Dev) (dt : Nat) : (d.pass dt).emits = d.emits := rfl
@[simp] theorem Dev.evq_pass (d : Dev) (x0 : Party) (dt : Nat) : (d.pass dt).evq x0 = d.evq x0 := rfl
@[simp] theorem Dev.inhLevel_pass (d : Dev) (dt : Nat) : (d.pass dt).inhLevel = d.inhLevel := rfl
@[simp] theorem Dev.limpLevel_pass (d : Dev) (dt : Nat) : (d.pass dt).limpLevel = d.limpLevel := rfl
@[simp] theorem Dev.intLevel_pass (d : Dev) (q : EvQueue) (dt : Nat) : (d.pass dt).intLevel q = d.intLevel q := rfl
@[simp] theorem Dev.holdOf_pass (d : Dev) (page : Nat) (dt : Nat) : (d.pass dt).holdOf page = d.holdOf page := rfl
@[simp] theorem Dev.hold_pass (d : Dev) (n : Nat) (dt : Nat) : (d.pass dt).hold n = d.hold n := rfl
@[simp] theorem Dev.bankDead_pass (d : Dev) (a : Nat) (dt : Nat) : (d.pass dt).bankDead a = d.bankDead a := rfl
@[simp] theorem Dev.rawGet_pass (d : Dev) (a : Nat) (dt : Nat) : (d.pass dt).rawGet a = d.rawGet a := rfl
@[simp] theorem Dev.checkAt_pass (d : Dev) (a : Nat) (dt : Nat) : (d.pass dt).checkAt a = d.checkAt a := rfl
@[simp] theorem Dev.keelKeeps_pass (d : Dev) (dt : Nat) : (d.pass dt).keelKeeps = d.keelKeeps := rfl
@[simp] theorem Dev.pageRec_pass (d : Dev) (page : Nat) (dt : Nat) : (d.pass dt).pageRec page = d.pageRec page := rfl
@[simp] theorem Dev.persistent_pass (d : Dev) (a : Nat) (dt : Nat) : (d.pass dt).persistent a = d.persistent a := rfl
@[simp] theorem Dev.budgetRefuses_pass (d : Dev) (a : Nat) (dt : Nat) : (d.pass dt).budgetRefuses a = d.budgetRefuses a := rfl
@[simp] theorem Dev.storeHasRead_pass (d : Dev) (a : Nat) (dt : Nat) : (d.pass dt).storeHasRead a = d.storeHasRead a := rfl
@[simp] theorem Dev.logicalOf_pass (d : Dev) (page : Nat) (dt : Nat) : (d.pass dt).logicalOf page = d.logicalOf page := rfl
@[simp] theorem Dev.tallyPage_pass (d : Dev) (page : Nat) (dt : Nat) : (d.pass dt).tallyPage page = d.tallyPage page := rfl
@[simp] theorem Dev.storeBefore_pass (d : Dev) (p q : Nat) (dt : Nat) : (d.pass dt).storeBefore p q = d.storeBefore p q := rfl
@[simp] theorem Dev.progReads_pass (d : Dev) (dt : Nat) : (d.pass dt).progReads = d.progReads := rfl
@[simp] theorem Dev.inFlight_pass (d : Dev) (dt : Nat) : (d.pass dt).inFlight = d.inFlight := rfl
@[simp] theorem Dev.writeHeld_pass (d : Dev) (a : Nat) (dt : Nat) : (d.pass dt).writeHeld a = d.writeHeld a := rfl
@[simp] theorem Dev.pkr_pass (d : Dev) (c : Nat) (dt : Nat) : (d.pass dt).pkr c = d.pkr c := rfl
@[simp] theorem Dev.chanOn_pass (d : Dev) (c : Nat) (dt : Nat) : (d.pass dt).chanOn c = d.chanOn c := rfl
@[simp] theorem Dev.intakeOpen_pass (d : Dev) (dt : Nat) : (d.pass dt).intakeOpen = d.intakeOpen := rfl
@[simp] theorem Dev.ringWords_pass (d : Dev) (dt : Nat) : (d.pass dt).ringWords = d.ringWords := rfl
@[simp] theorem Dev.freezeArea_pass (d : Dev) (slot c : Nat) (dt : Nat) : (d.pass dt).freezeArea slot c = d.freezeArea slot c := rfl
@[simp] theorem Dev.postArea_pass (d : Dev) (slot c : Nat) (dt : Nat) : (d.pass dt).postArea slot c = d.postArea slot c := rfl
@[simp] theorem Dev.areaDead_pass (d : Dev) (slot c : Nat) (dt : Nat) : (d.pass dt).areaDead slot c = d.areaDead slot c := rfl
@[simp] theorem Dev.codingOpen_pass (d : Dev) (dt : Nat) : (d.pass dt).codingOpen = d.codingOpen := rfl
@[simp] theorem Dev.returnTick_pass (d : Dev) (dt : Nat) : (d.pass dt).returnTick = d.returnTick := rfl
@[simp] theorem Dev.mayArm_pass (d : Dev) (y : Party) (dt : Nat) : (d.pass dt).mayArm y = d.mayArm y := rfl
@[simp] theorem Dev.sideRead_pass (d : Dev) (a : Nat) (dt : Nat) : (d.pass dt).sideRead a = d.sideRead a := rfl
@[simp] theorem Dev.portAlive_pass (d : Dev) (p : Port) (dt : Nat) : (d.pass dt).portAlive p = d.portAlive p := rfl
@[simp] theorem Dev.areaWords_pass (d : Dev) (dt : Nat) : (d.pass dt).areaWords = d.areaWords := rfl
@[simp] theorem Dev.recordWords_pass (d : Dev) (dt : Nat) : (d.pass dt).recordWords = d.recordWords := rfl
@[simp] theorem Dev.sealedHold_pass (d : Dev) (dt : Nat) : (d.pass dt).sealedHold = d.sealedHold := rfl
@[simp] theorem Dev.slotBase_pass (d : Dev) (i : Nat) (dt : Nat) : (d.pass dt).slotBase i = d.slotBase i := rfl
@[simp] theorem Dev.chanBase_pass (d : Dev) (slot c : Nat) (dt : Nat) : (d.pass dt).chanBase slot c = d.chanBase slot c := rfl
@[simp] theorem Dev.trailerBase_pass (d : Dev) (i : Nat) (dt : Nat) : (d.pass dt).trailerBase i = d.trailerBase i := rfl
@[simp] theorem Dev.slotRec_pass (d : Dev) (i : Nat) (dt : Nat) : (d.pass dt).slotRec i = d.slotRec i := rfl
@[simp] theorem Dev.nextSlot_pass (d : Dev) (dt : Nat) : (d.pass dt).nextSlot = d.nextSlot := rfl
@[simp] theorem Dev.node_pass (d : Dev) (dt : Nat) : (d.pass dt).node = d.node := rfl
@[simp] theorem Dev.headerWord2_pass (d : Dev) (trig : Nat) (chainStart cutShort : Bool) (dt : Nat) : (d.pass dt).headerWord2 trig chainStart cutShort = d.headerWord2 trig chainStart cutShort := rfl
@[simp] theorem Dev.headerWord8_pass (d : Dev) (extra : Nat) (dt : Nat) : (d.pass dt).headerWord8 extra = d.headerWord8 extra := rfl
@[simp] theorem Dev.openRec_pass (d : Dev) (dt : Nat) : (d.pass dt).openRec = d.openRec := rfl
@[simp] theorem Dev.seqLeft_pass (d : Dev) (dt : Nat) : (d.pass dt).seqLeft = d.seqLeft := rfl
@[simp] theorem Dev.regMode_pass (d : Dev) (dt : Nat) : (d.pass dt).regMode = d.regMode := rfl
@[simp] theorem Dev.pfail_pass (d : Dev) (dt : Nat) : (d.pass dt).pfail = d.pfail := rfl
@[simp] theorem Dev.on_pass (d : Dev) (dt : Nat) : (d.pass dt).on = d.on := rfl
@[simp] theorem Dev.onSeen_pass (d : Dev) (dt : Nat) : (d.pass dt).onSeen = d.onSeen := rfl
@[simp] theorem Dev.regPwr_pass (d : Dev) (dt : Nat) : (d.pass dt).regPwr = d.regPwr := rfl
@[simp] theorem Dev.ringPend_pass (d : Dev) (dt : Nat) : (d.pass dt).ringPend = d.ringPend := rfl
@[simp] theorem Dev.regDev0_pass (d : Dev) (o : Nat) (dt : Nat) : (d.pass dt).regDev0 o = d.regDev0 o := rfl
@[simp] theorem Dev.regEcc_pass (d : Dev) (o : Nat) (dt : Nat) : (d.pass dt).regEcc o = d.regEcc o := rfl
@[simp] theorem Dev.holdDirty_pass (d : Dev) (n : Nat) (dt : Nat) : (d.pass dt).holdDirty n = d.holdDirty n := rfl
@[simp] theorem Dev.regHold_pass (d : Dev) (n o : Nat) (dt : Nat) : (d.pass dt).regHold n o = d.regHold n o := rfl
@[simp] theorem Dev.counts_pass (d : Dev) (dt : Nat) : (d.pass dt).counts = d.counts := rfl
@[simp] theorem Dev.srcBits_pass (d : Dev) (w : Nat) (f : Source → Bool) (dt : Nat) : (d.pass dt).srcBits w f = d.srcBits w f := rfl
@[simp] theorem Dev.regPkr_pass (d : Dev) (o : Nat) (dt : Nat) : (d.pass dt).regPkr o = d.regPkr o := rfl
@[simp] theorem Dev.tallyHold_pass (d : Dev) (dt : Nat) : (d.pass dt).tallyHold = d.tallyHold := rfl
@[simp] theorem Dev.tallyGuests_pass (d : Dev) (dt : Nat) : (d.pass dt).tallyGuests = d.tallyGuests := rfl
@[simp] theorem Dev.peek_pass (d : Dev) (a : Nat) (dt : Nat) : (d.pass dt).peek a = d.peek a := rfl
@[simp] theorem Dev.guestSlots_pass (d : Dev) (dt : Nat) : (d.pass dt).guestSlots = d.guestSlots := rfl
@[simp] theorem Dev.regKst_pass (d : Dev) (o : Nat) (dt : Nat) : (d.pass dt).regKst o = d.regKst o := rfl
@[simp] theorem Dev.regRng_pass (d : Dev) (o : Nat) (dt : Nat) : (d.pass dt).regRng o = d.regRng o := rfl
@[simp] theorem Dev.regLog_pass (d : Dev) (o : Nat) (dt : Nat) : (d.pass dt).regLog o = d.regLog o := rfl
@[simp] theorem Dev.configOk_pass (d : Dev) (dt : Nat) : (d.pass dt).configOk = d.configOk := rfl
@[simp] theorem Dev.fetchBudget_pass (d : Dev) (dt : Nat) : (d.pass dt).fetchBudget = d.fetchBudget := rfl
@[simp] theorem Dev.nextEntry_pass (d : Dev) (r : Replay) (first : Bool) (dt : Nat) : (d.pass dt).nextEntry r first = d.nextEntry r first := rfl
@[simp] theorem Dev.recLink_pass (d : Dev) (w : Word) (dt : Nat) : (d.pass dt).recLink w = d.recLink w := rfl
@[simp] theorem Dev.cmd_pass (d : Dev) (x0 : Port) (dt : Nat) : (d.pass dt).cmd x0 = d.cmd x0 := rfl
@[simp] theorem Dev.accepted_pass (d : Dev) (p : Port) (op : Nat) (dt : Nat) : (d.pass dt).accepted p op = d.accepted p op := rfl
@[simp] theorem Dev.started_pass (d : Dev) (p : Port) (op : Nat) (dt : Nat) : (d.pass dt).started p op = d.started p op := rfl
@[simp] theorem Dev.link_pass (d : Dev) (x0 : Link) (dt : Nat) : (d.pass dt).link x0 = d.link x0 := rfl
@[simp] theorem Dev.logical_pass (d : Dev) (l : Link) (dt : Nat) : (d.pass dt).logical l = d.logical l := rfl
@[simp] theorem Dev.linkNo_pass (d : Dev) (l : Link) (dt : Nat) : (d.pass dt).linkNo l = d.linkNo l := rfl
@[simp] theorem Dev.hasRing_pass (d : Dev) (dt : Nat) : (d.pass dt).hasRing = d.hasRing := rfl
@[simp] theorem Dev.linksTrain_pass (d : Dev) (dt : Nat) : (d.pass dt).linksTrain = d.linksTrain := rfl
@[simp] theorem Dev.ringCount_pass (d : Dev) (dt : Nat) : (d.pass dt).ringCount = d.ringCount := rfl
@[simp] theorem Dev.isAnchor_pass (d : Dev) (dt : Nat) : (d.pass dt).isAnchor = d.isAnchor := rfl
@[simp] theorem Dev.outDown_pass (d : Dev) (dt : Nat) : (d.pass dt).outDown = d.outDown := rfl
@[simp] theorem Dev.outFrom_pass (d : Dev) (l : Link) (dt : Nat) : (d.pass dt).outFrom l = d.outFrom l := rfl
@[simp] theorem Dev.ringPos_pass (d : Dev) (n : Nat) (dt : Nat) : (d.pass dt).ringPos n = d.ringPos n := rfl
@[simp] theorem Dev.nodeAt_pass (d : Dev) (p : Nat) (dt : Nat) : (d.pass dt).nodeAt p = d.nodeAt p := rfl
@[simp] theorem Dev.inRing_pass (d : Dev) (n : Nat) (dt : Nat) : (d.pass dt).inRing n = d.inRing n := rfl
@[simp] theorem Dev.clearFrom_pass (d : Dev) (a b : Nat) (dt : Nat) : (d.pass dt).clearFrom a b = d.clearFrom a b := rfl
@[simp] theorem Dev.pathTo_pass (d : Dev) (n : Nat) (dt : Nat) : (d.pass dt).pathTo n = d.pathTo n := rfl
@[simp] theorem Dev.originates_pass (d : Dev) (dt : Nat) : (d.pass dt).originates = d.originates := rfl
@[simp] theorem Dev.nodeBefore_pass (d : Dev) (n : Nat) (dt : Nat) : (d.pass dt).nodeBefore n = d.nodeBefore n := rfl
@[simp] theorem Dev.hopName_pass (d : Dev) (l : Link) (dt : Nat) : (d.pass dt).hopName l = d.hopName l := rfl
@[simp] theorem Dev.semR_pass (d : Dev) (n : Nat) (dt : Nat) : (d.pass dt).semR n = d.semR n := rfl
@[simp] theorem Dev.claimOf_pass (d : Dev) (n : Nat) (dt : Nat) : (d.pass dt).claimOf n = d.claimOf n := rfl
@[simp] theorem Dev.ringOwns_pass (d : Dev) (y : Party) (n : Nat) (dt : Nat) : (d.pass dt).ringOwns y n = d.ringOwns y n := rfl
@[simp] theorem Dev.memberReady_pass (d : Dev) (i m : Nat) (dt : Nat) : (d.pass dt).memberReady i m = d.memberReady i m := rfl
@[simp] theorem Dev.readyMembers_pass (d : Dev) (i : Nat) (dt : Nat) : (d.pass dt).readyMembers i = d.readyMembers i := rfl
@[simp] theorem Dev.senders_pass (d : Dev) (i : Nat) (dt : Nat) : (d.pass dt).senders i = d.senders i := rfl
@[simp] theorem Dev.slotOfSeq_pass (d : Dev) (seq : Nat) (dt : Nat) : (d.pass dt).slotOfSeq seq = d.slotOfSeq seq := rfl
@[simp] theorem Dev.msTicks_pass (d : Dev) (ms : Nat) (dt : Nat) : (d.pass dt).msTicks ms = d.msTicks ms := rfl
@[simp] theorem Dev.keepDue_pass (d : Dev) (dt : Nat) : (d.pass dt).keepDue = d.keepDue := rfl
@[simp] theorem Dev.takesFrames_pass (d : Dev) (dt : Nat) : (d.pass dt).takesFrames = d.takesFrames := rfl
@[simp] theorem Dev.linkLive_pass (d : Dev) (l : Link) (dt : Nat) : (d.pass dt).linkLive l = d.linkLive l := rfl
@[simp] theorem Dev.ringBook_pass (d : Dev) (l : Link) (cls : Nat) (dt : Nat) : (d.pass dt).ringBook l cls = d.ringBook l cls := rfl
@[simp] theorem Dev.hasCredit_pass (d : Dev) (l : Link) (cls : Nat) (dt : Nat) : (d.pass dt).hasCredit l cls = d.hasCredit l cls := rfl
@[simp] theorem Dev.scrubBank_pass (d : Dev) (b : Nat) (dt : Nat) : (d.pass dt).scrubBank b = d.scrubBank b := rfl
@[simp] theorem Dev.rawAllowed_pass (d : Dev) (a : Nat) (dt : Nat) : (d.pass dt).rawAllowed a = d.rawAllowed a := rfl
@[simp] theorem Dev.inStripe_pass (d : Dev) (a : Nat) (dt : Nat) : (d.pass dt).inStripe a = d.inStripe a := rfl
@[simp] theorem Dev.tally_pass (d : Dev) (t : Nat) (dt : Nat) : (d.pass dt).tally t = d.tally t := rfl
@[simp] theorem Dev.tallyBase_pass (d : Dev) (t : Nat) (dt : Nat) : (d.pass dt).tallyBase t = d.tallyBase t := rfl
@[simp] theorem Dev.acceptTick_pass (d : Dev) (p : Port) (dt : Nat) : (d.pass dt).acceptTick p = d.acceptTick p := rfl
@[simp] theorem Dev.attestWords_pass (d : Dev) (t value tick nonce : Nat) (dt : Nat) : (d.pass dt).attestWords t value tick nonce = d.attestWords t value tick nonce := rfl
@[simp] theorem Dev.team_pass (d : Dev) (dt : Nat) : (d.pass dt).team = d.team := rfl
@[simp] theorem Dev.committedTally_pass (d : Dev) (t : Nat) (dt : Nat) : (d.pass dt).committedTally t = d.committedTally t := rfl
@[simp] theorem Dev.auditFrom_pass (d : Dev) (i : Nat) (dt : Nat) : (d.pass dt).auditFrom i = d.auditFrom i := rfl
@[simp] theorem Dev.patternOf_pass (d : Dev) (l : Link) (dt : Nat) : (d.pass dt).patternOf l = d.patternOf l := rfl
@[simp] theorem Dev.wireLink_pass (d : Dev) (l : Link) (dt : Nat) : (d.pass dt).wireLink l = d.wireLink l := rfl
@[simp] theorem Dev.captures_pass (d : Dev) (m : Mode) (dt : Nat) : (d.pass dt).captures m = d.captures m := rfl
@[simp] theorem Dev.tickHeader_pass (d : Dev) (m : Mode) (t : TtName) (base : Nat) (dt : Nat) : (d.pass dt).tickHeader m t base = d.tickHeader m t base := rfl
@[simp] theorem Dev.tallyOpen_pass (d : Dev) (dt : Nat) : (d.pass dt).tallyOpen = d.tallyOpen := rfl
@[simp] theorem Dev.sealing_pass (d : Dev) (dt : Nat) : (d.pass dt).sealing = d.sealing := rfl
@[simp] theorem Dev.books_pass (d : Dev) (dt : Nat) : (d.pass dt).books = d.books := rfl
@[simp] theorem Dev.ropingNow_pass (d : Dev) (dt : Nat) : (d.pass dt).ropingNow = d.ropingNow := rfl
@[simp] theorem Dev.needReasons_pass (d : Dev) (dt : Nat) : (d.pass dt).needReasons = d.needReasons := rfl
@[simp] theorem Dev.updateTarget_pass (d : Dev) (dt : Nat) : (d.pass dt).updateTarget = d.updateTarget := rfl
@[simp] theorem Dev.targetCopy_pass (d : Dev) (dt : Nat) : (d.pass dt).targetCopy = d.targetCopy := rfl
@[simp] theorem Dev.updateOpen_pass (d : Dev) (p : Port) (dt : Nat) : (d.pass dt).updateOpen p = d.updateOpen p := rfl
@[simp] theorem Dev.seqFits_pass (d : Dev) (seq : Nat) (dt : Nat) : (d.pass dt).seqFits seq = d.seqFits seq := rfl

/-- Where nothing is to fall due, time alone passes. -/
theorem Dev.advance_quiet {d : Dev} (h : d.dues = []) (dt : Nat) : d.advance dt = d.pass dt := by
  simp [Dev.advance, Dev.passTo, h, Dev.dueBefore]

/-- Without VDD nothing falls due. -/
theorem Dev.advance_unpowered {d : Dev} (h : d.pw.powered = false) (dt : Nat) : d.advance dt = d.pass dt := by
  simp [Dev.advance, Dev.passTo, h]

/-- A party that acts acts on the device that time has brought. -/
theorem State.acts_after {s : State} {dt : Nat} {y : Party} (h : s.acts dt y) : (s.after dt).partyActs y = true := h.2

end Sys2Proof.Machine
end

