-- ==== Sys2Proof/Laws/Memory.lean ====
section
/-!
SUPPORT. Laws of the sparse memory: a read after a write, the canonical form, and what the operations on array words keep.
-/
namespace Sys2Proof.Machine
open Sys2Proof

/-! ### The list of code words -/

/-- A higher bound holds where a lower one does not come sooner. -/
theorem cellsAbove_mono {lo hi : Nat} (h : hi ≤ lo) : ∀ {m : List (Nat × Code)}, cellsAbove lo m = true →
    cellsAbove hi m = true
  | [], _ => rfl
  | (k, c) :: r, hm => by
    simp only [cellsAbove, Bool.and_eq_true, decide_eq_true_eq] at hm ⊢
    exact ⟨⟨by omega, hm.1.2⟩, hm.2⟩

/-- Below its bound a list holds nothing. -/
theorem cellsGet_below : ∀ {m : List (Nat × Code)} {lo a : Nat}, cellsAbove lo m = true → a < lo → cellsGet m a = 0#20
  | [], _, _, _, _ => rfl
  | (k, c) :: r, lo, a, hm, ha => by
    simp only [cellsAbove, Bool.and_eq_true, decide_eq_true_eq] at hm
    have hk : k ≠ a := by omega
    simp only [cellsGet, if_neg hk]
    exact cellsGet_below hm.2 (by omega)

/-- A write keeps the bound, where its address does. -/
theorem cellsSet_above : ∀ {m : List (Nat × Code)} {lo a : Nat} (v : Code), cellsAbove lo m = true → lo ≤ a →
    cellsAbove lo (cellsSet m a v) = true
  | [], lo, a, v, _, ha => by
    by_cases hv : v = 0#20 <;> simp [cellsSet, cellsAbove, hv, ha]
  | (k, c) :: r, lo, a, v, hm, ha => by
    simp only [cellsAbove, Bool.and_eq_true, decide_eq_true_eq] at hm
    obtain ⟨⟨hlo, hc⟩, hr⟩ := hm
    by_cases h1 : k < a
    · simp [cellsSet, h1, cellsAbove, hlo, hc, cellsSet_above v hr (show k + 1 ≤ a by omega)]
    · by_cases h2 : k = a
      · subst h2
        by_cases hv : v = 0#20
        · simp [cellsSet, hv, cellsAbove_mono (show lo ≤ k + 1 by omega) hr]
        · simp [cellsSet, hv, cellsAbove, hlo, hr]
      · by_cases hv : v = 0#20
        · simp [cellsSet, h1, h2, hv, cellsAbove, hlo, hc, hr]
        · simp [cellsSet, h1, h2, hv, cellsAbove, ha, hc, hr, show a + 1 ≤ k by omega]

/-- A word reads as it was written. -/
theorem cellsGet_cellsSet_same : ∀ {m : List (Nat × Code)} {lo a : Nat} (v : Code), cellsAbove lo m = true →
    cellsGet (cellsSet m a v) a = v
  | [], _, a, v, _ => by
    by_cases hv : v = 0#20 <;> simp [cellsSet, cellsGet, hv]
  | (k, c) :: r, lo, a, v, hm => by
    simp only [cellsAbove, Bool.and_eq_true, decide_eq_true_eq] at hm
    by_cases h1 : k < a
    · simp [cellsSet, h1, cellsGet, Nat.ne_of_lt h1, cellsGet_cellsSet_same v hm.2]
    · by_cases h2 : k = a
      · subst h2
        by_cases hv : v = 0#20
        · simp [cellsSet, hv, cellsGet_below hm.2 (show k < k + 1 by omega)]
        · simp [cellsSet, hv, cellsGet]
      · by_cases hv : v = 0#20
        · simp [cellsSet, h1, h2, hv, cellsGet, cellsGet_below hm.2 (show a < k + 1 by omega)]
        · simp [cellsSet, h1, h2, hv, cellsGet]

/-- Another word reads as before. -/
theorem cellsGet_cellsSet_other : ∀ {m : List (Nat × Code)} {lo a b : Nat} (v : Code), cellsAbove lo m = true → b ≠ a →
    cellsGet (cellsSet m a v) b = cellsGet m b
  | [], _, a, b, v, _, hb => by
    by_cases hv : v = 0#20 <;> simp [cellsSet, cellsGet, hv, Ne.symm hb]
  | (k, c) :: r, lo, a, b, v, hm, hb => by
    simp only [cellsAbove, Bool.and_eq_true, decide_eq_true_eq] at hm
    by_cases h1 : k < a
    · simp [cellsSet, h1, cellsGet, cellsGet_cellsSet_other v hm.2 hb]
    · by_cases h2 : k = a
      · subst h2
        by_cases hv : v = 0#20
        · simp [cellsSet, hv, cellsGet, Ne.symm hb]
        · simp [cellsSet, hv, cellsGet, Ne.symm hb]
      · by_cases hv : v = 0#20
        · simp [cellsSet, h1, h2, hv]
        · simp [cellsSet, h1, h2, hv, cellsGet, Ne.symm hb]

/-- A write keeps the canonical form. -/
theorem Memory.wf_cellsSet {m : List (Nat × Code)} (h : Memory.wf m = true) (a : Nat) (v : Code) :
    Memory.wf (cellsSet m a v) = true := cellsSet_above v h (Nat.zero_le a)

/-- Writes of many words keep the canonical form. -/
theorem Memory.wf_foldl {α : Type} (f : α → Nat) (g : α → Code) : ∀ (l : List α) {m : List (Nat × Code)},
    Memory.wf m = true → Memory.wf (l.foldl (fun m x => cellsSet m (f x) (g x)) m) = true
  | [], _, h => h
  | _ :: l, _, h => Memory.wf_foldl f g l (Memory.wf_cellsSet h _ _)

/-- The empty memory is canonical. -/
theorem Memory.wf_nil : Memory.wf [] = true := rfl

/-- The memory at reset is canonical. -/
theorem State.reset_memoryCanonical : State.reset.memoryCanonical := rfl

/-! ### Code words of the device -/

/-- A word reads as it was stored. -/
theorem Dev.rawGet_rawSet_same {d : Dev} (h : Memory.wf d.ar.mem = true) (a : Nat) (c : Code) :
    (d.rawSet a c).rawGet a = c := by
  rcases hs : d.ar.stripe with _ | j
  · simp [Dev.rawSet, Dev.rawGet, hs, cellsGet_cellsSet_same c h]
  · by_cases hin : j.base ≤ a ∧ a < j.base + j.buf.length
    · simp [Dev.rawSet, Dev.rawGet, hs, hin, show a - j.base < j.buf.length by omega]
    · simp only [Dev.rawSet, Dev.rawGet, hs, if_neg hin]
      split
      · next b hb =>
        have hlt : a - j.base < j.buf.length := (List.getElem?_eq_some_iff.mp hb).1
        rw [if_neg (by omega)]
        exact cellsGet_cellsSet_same c h
      · exact cellsGet_cellsSet_same c h

/-- Another word reads as before. -/
theorem Dev.rawGet_rawSet_other {d : Dev} (h : Memory.wf d.ar.mem = true) {a b : Nat} (hb : b ≠ a) (c : Code) :
    (d.rawSet a c).rawGet b = d.rawGet b := by
  have hm : cellsGet (cellsSet d.ar.mem a c) b = cellsGet d.ar.mem b := cellsGet_cellsSet_other c h hb
  rcases hs : d.ar.stripe with _ | j
  · simp [Dev.rawSet, Dev.rawGet, hs, hm]
  · by_cases hin : j.base ≤ a ∧ a < j.base + j.buf.length
    · have hif : ∀ q : Prop, [Decidable q] →
          cellsGet (if q then cellsSet d.ar.mem a c else d.ar.mem) b = cellsGet d.ar.mem b := by
        intro q _; split
        · exact hm
        · rfl
      simp only [Dev.rawSet, Dev.rawGet, hs, if_pos hin]
      by_cases hb2 : j.base ≤ b
      · rw [List.getElem?_set_ne (by omega)]
        split
        · rw [if_pos hb2, if_pos hb2]
        · exact hif _
      · generalize (j.buf.set _ _)[b - j.base]? = x
        generalize j.buf[b - j.base]? = y
        cases x <;> cases y <;> simp only [if_neg hb2] <;> exact hif (j.phase = StripePhase.back ∧ a < j.base + j.idx)
    · simp only [Dev.rawSet, Dev.rawGet, hs, if_neg hin, hm]

/-- Storing a code word keeps memory canonical. -/
theorem Dev.rawSet_wf {d : Dev} (h : Memory.wf d.ar.mem = true) (a : Nat) (c : Code) :
    Memory.wf (d.rawSet a c).ar.mem = true := by
  unfold Dev.rawSet
  split
  · split
    · dsimp only
      split
      · exact Memory.wf_cellsSet h a c
      · exact h
    · exact Memory.wf_cellsSet h a c
  · exact Memory.wf_cellsSet h a c

/-- Storing a code word changes the array's part alone: its list and its stripe buffer. -/
theorem Dev.rawSet_frame (d : Dev) (a : Nat) (c : Code) :
    ∃ mem stripe, d.rawSet a c = { d with ar := { d.ar with mem := mem, stripe := stripe } } := by
  unfold Dev.rawSet
  split
  · split
    · exact ⟨_, _, rfl⟩
    · exact ⟨_, d.ar.stripe, rfl⟩
  · exact ⟨_, d.ar.stripe, rfl⟩

/-- A device whose array list and stripe buffer are another's reads as that one. -/
theorem Dev.rawGet_congr {d e : Dev} (hm : e.ar.mem = d.ar.mem) (hs : e.ar.stripe = d.ar.stripe) (a : Nat) :
    e.rawGet a = d.rawGet a := by unfold Dev.rawGet; rw [hm, hs]

end Sys2Proof.Machine
end

