-- ==== Sys2Proof/Laws/Ops.lean ====
section
/-!
SUPPORT. What each shared operation can do, said once: the parts of the device it changes.
-/
namespace Sys2Proof.Machine
open Sys2Proof

/-! ### The logbook's capture and the output units: the logbook alone -/

/-- The two devices differ in their logbooks at most. -/
def Dev.OnlyLb (d e : Dev) : Prop := ∃ x, e = { d with lb := x }

theorem Dev.OnlyLb.refl (d : Dev) : d.OnlyLb d := ⟨d.lb, rfl⟩

theorem Dev.OnlyLb.trans {d e f : Dev} (h : d.OnlyLb e) (k : e.OnlyLb f) : d.OnlyLb f := by
  obtain ⟨x, rfl⟩ := h
  obtain ⟨y, rfl⟩ := k
  exact ⟨y, rfl⟩

/-- A fold of steps that each change the logbook alone. -/
theorem Dev.OnlyLb.foldl {α : Type} {f : Dev → α → Dev} (hf : ∀ (d : Dev) x, d.OnlyLb (f d x)) :
    ∀ (l : List α) (d : Dev), d.OnlyLb (l.foldl f d)
  | [], d => .refl d
  | x :: l, d => (hf d x).trans (foldl hf l (f d x))

theorem Dev.queuePiece_frame (d : Dev) (n : Nat) : d.OnlyLb (d.queuePiece n).1 := by
  unfold Dev.queuePiece
  split
  · exact ⟨_, rfl⟩
  · split <;> exact ⟨_, rfl⟩

theorem Dev.setCut_frame (d : Dev) (p : Port) (x : Bool) : d.OnlyLb (d.setCut p x) := by cases p <;> exact ⟨_, rfl⟩

theorem Dev.captureItem_frame (d : Dev) (i : WireItem) : d.OnlyLb (d.captureItem i) := by
  have h := d.queuePiece_frame i.words.length
  unfold Dev.captureItem
  split
  · exact .refl d
  · rcases hq : d.queuePiece i.words.length with ⟨e, ok⟩
    rw [hq] at h
    simp only
    split
    · split <;> exact h.trans ⟨_, rfl⟩
    · exact h.trans (Dev.OnlyLb.trans ⟨_, rfl⟩ (Dev.setCut_frame _ _ _))

theorem Dev.captureHead_frame (d : Dev) (p : Port) (ws : List Word) : d.OnlyLb (d.captureHead p ws) := by
  have h := d.queuePiece_frame ws.length
  unfold Dev.captureHead
  split
  · rcases hq : d.queuePiece ws.length with ⟨e, ok⟩
    rw [hq] at h
    have k := h.trans (e.setCut_frame p (!ok))
    simp only
    split
    · exact k.trans ⟨_, rfl⟩
    · exact k
  · exact .refl d

theorem Dev.capture_frame (d : Dev) (k s : Nat) (ws : List Word) : d.OnlyLb (d.capture k s ws) := by
  have h := d.queuePiece_frame ws.length
  unfold Dev.capture
  split
  · rcases hq : d.queuePiece ws.length with ⟨e, ok⟩
    rw [hq] at h
    simp only
    split
    · exact h.trans ⟨_, rfl⟩
    · exact h
  · exact .refl d

theorem Dev.capturePin_frame (d : Dev) (p v : Nat) : d.OnlyLb (d.capturePin p v) := d.capture_frame _ _ _

theorem Dev.captureCheck_frame (d : Dev) (a o s : Nat) (p t : Bool) : d.OnlyLb (d.captureCheck a o s p t) :=
  d.capture_frame _ _ _

theorem Dev.captureLink_frame (d : Dev) (l : Link) (e v : Nat) : d.OnlyLb (d.captureLink l e v) := d.capture_frame _ _ _

theorem Dev.captureState_frame (d : Dev) (l : Link) : d.OnlyLb (d.captureState l) := d.captureLink_frame _ _ _

theorem Dev.captureFrame_frame (d : Dev) (l : Link) (f : Frame) (q : Nat) : d.OnlyLb (d.captureFrame l f q) :=
  d.capture_frame _ _ _

theorem Dev.emitAt_frame (d : Dev) (s k t x v w : Nat) : d.OnlyLb (d.emitAt s k t x v w) := by
  unfold Dev.emitAt
  split
  · exact ⟨_, rfl⟩
  · exact .refl d

theorem Dev.emit_frame (d : Dev) (k t x v w : Nat) : d.OnlyLb (d.emit k t x v w) := d.emitAt_frame _ _ _ _ _ _

theorem Dev.emitPin_frame (d : Dev) (p : Nat) (o n : Bool) : d.OnlyLb (d.emitPin p o n) := by
  unfold Dev.emitPin
  split
  · exact .refl d
  · exact d.emit_frame _ _ _ _ _

theorem Dev.emitWrite_frame (d : Dev) (a : Nat) (w : Word) : d.OnlyLb (d.emitWrite a w) := d.emit_frame _ _ _ _ _

theorem Dev.emitFrame_frame (d : Dev) (l : Link) (t : Nat) (bs : List Byte) : d.OnlyLb (d.emitFrame l t bs) :=
  d.emit_frame _ _ _ _ _

/-! ### Events: the event controller alone -/

theorem Dev.post_frame (d : Dev) (n : Nat) : ∃ r, d.post n = { d with ev := { d.ev with recs := r } } := ⟨_, rfl⟩

/-- A source that fires changes the sources and the queued records alone. -/
theorem Dev.fire_frame (d : Dev) (n : Nat) :
    ∃ x r, d.fire n = { d with ev := { d.ev with srcs := x, recs := r } } := by
  unfold Dev.fire
  split
  · simp only
    split
    · exact ⟨_, d.ev.recs, rfl⟩
    · split
      · exact ⟨_, d.ev.recs, rfl⟩
      · exact ⟨_, _, rfl⟩
  · exact ⟨d.ev.srcs, d.ev.recs, rfl⟩

theorem Dev.fireFirst_frame (d : Dev) (n : Nat) : ∃ x, d.fireFirst n = { d with ev := x } := by
  unfold Dev.fireFirst
  split
  · obtain ⟨x, r, h⟩ := d.fire_frame n
    exact ⟨_, h⟩
  · exact ⟨_, rfl⟩

theorem Dev.lockViol_frame (d : Dev) :
    ∃ n x, d.lockViol = { d with hn := { d.hn with lockViol := n }, ev := x } := by
  obtain ⟨x, r, h⟩ := ({ d with hn := { d.hn with lockViol := satInc 14 d.hn.lockViol } } : Dev).fire_frame 0
  exact ⟨_, _, h⟩

theorem Dev.stall_frame (d : Dev) (b : Nat) : ∃ x y, d.stall b = { d with hn := x, ev := y } := by
  unfold Dev.stall
  split
  · exact ⟨d.hn, d.ev, rfl⟩
  · obtain ⟨x, r, h⟩ := ({ d with hn := { d.hn with
        stalled := b :: d.hn.stalled, credStall := satInc 14 d.hn.credStall, credWho := b } } : Dev).fire_frame 38
    exact ⟨_, _, h⟩

theorem Dev.tellParty_frame (d : Dev) (y : Party) (n : Nat) :
    ∃ x w, d.tellParty y n = { d with ev := x, pl := { d.pl with woken := w } } := by
  unfold Dev.tellParty
  split
  · obtain ⟨x, r, h⟩ := d.fire_frame n
    exact ⟨_, d.pl.woken, h⟩
  · obtain ⟨x, r, h⟩ := d.fire_frame (n + 1)
    exact ⟨_, d.pl.woken, h⟩
  · exact ⟨d.ev, true, rfl⟩

/-! ### The output pins and the mode -/

theorem Dev.updPins_frame (d : Dev) : ∃ a b x, d.updPins = { d with
    pw := { d.pw with inh := d.inhLevel, limpPin := d.limpLevel }, ev := { d.ev with intA := a, intB := b }, lb := x } := by
  have h : ∀ (d : Dev) (i l a b : Bool), d.OnlyLb
      ((((d.emitPin 0 d.pw.inh i).emitPin 1 d.pw.limpPin l).emitPin 2 d.ev.intA a).emitPin 3 d.ev.intB b) :=
    fun d i l a b => (((d.emitPin_frame _ _ _).trans (Dev.emitPin_frame _ _ _ _)).trans (Dev.emitPin_frame _ _ _ _)).trans
      (Dev.emitPin_frame _ _ _ _)
  obtain ⟨x, hx⟩ := h d d.inhLevel d.limpLevel (d.intLevel d.ev.qA) (d.intLevel d.ev.qB)
  refine ⟨d.intLevel d.ev.qA, d.intLevel d.ev.qB, x, ?_⟩
  unfold Dev.updPins
  simp only
  rw [hx]

/-- A change of mode: the mode and the one before it, the pins, the service nonce, the raw enable, an event, the logbook. -/
theorem Dev.setMode_frame (d : Dev) (m : Mode) : ∃ pm i l n r x y, d.setMode m = { d with
    pw := { d.pw with mode := m, prevMode := pm, inh := i, limpPin := l }, pl := { d.pl with nonce := n },
    ar := { d.ar with rawEn := r }, ev := x, lb := y } := by
  have key : ∀ e : Dev, (∃ r x y, e = { d with
      pw := { d.pw with mode := m, prevMode := d.pw.mode }, pl := { d.pl with nonce := none },
      ar := { d.ar with rawEn := r }, ev := x, lb := y }) →
      ∃ pm i l n r x y, e.updPins = { d with
        pw := { d.pw with mode := m, prevMode := pm, inh := i, limpPin := l }, pl := { d.pl with nonce := n },
        ar := { d.ar with rawEn := r }, ev := x, lb := y } := by
    rintro e ⟨r, x, y, rfl⟩
    obtain ⟨a, b, z, hz⟩ := Dev.updPins_frame _
    exact ⟨_, _, _, _, _, _, _, hz⟩
  unfold Dev.setMode
  split
  · next h =>
    obtain ⟨a, b, x, hx⟩ := d.updPins_frame
    subst h
    exact ⟨d.pw.prevMode, _, _, d.pl.nonce, d.ar.rawEn, _, _, hx⟩
  · obtain ⟨x, hx⟩ := d.emit_frame 6 m.code 0 0 0
    rw [hx]
    simp only
    split
    · obtain ⟨y, r, hy⟩ := Dev.fire_frame _ 54
      exact key _ ⟨_, _, _, hy⟩
    · exact key _ ⟨_, _, _, rfl⟩

theorem Dev.switchTo_frame (d : Dev) (t : TtName) : ∃ x, d.switchTo t = { d with ck := x } := by
  unfold Dev.switchTo
  split
  · exact ⟨d.ck, rfl⟩
  · exact ⟨_, rfl⟩

/-! ### Reads of the array: the memory stays -/

theorem Dev.logErr_frame (d : Dev) (a o : Nat) (k : LogKind) (s : Nat) (p : Bool) (c : Locus) :
    ∃ log n hd w v, d.logErr a o k s p c = { d with ar := { d.ar with
      log := log, logNewest := n, logHead := hd, logWrapped := w, logOvw := v } } := by
  unfold Dev.logErr
  simp only
  split
  · exact ⟨_, d.ar.logNewest, d.ar.logHead, d.ar.logWrapped, d.ar.logOvw, rfl⟩
  · exact ⟨_, _, _, _, _, rfl⟩

/-- What a read through the checker may change: the draws, the log, the counts and the repair queues, the events, the logbook;
never a stored word, its written state, a hold or a bank. -/
def Dev.OnlyChecked (d e : Dev) : Prop := ∃ dr log n hd w v c u q rd, ∃ (x : List Source × List EvRecord), ∃ y, e = { d with
  draws := dr, ar := { d.ar with log := log, logNewest := n, logHead := hd, logWrapped := w, logOvw := v, corr := c,
                                 uncorr := u, banks := q, repDrop := rd }, ev := { d.ev with srcs := x.1, recs := x.2 },
  lb := y }

theorem Dev.OnlyChecked.refl (d : Dev) : d.OnlyChecked d :=
  ⟨d.draws, d.ar.log, d.ar.logNewest, d.ar.logHead, d.ar.logWrapped, d.ar.logOvw, d.ar.corr, d.ar.uncorr, d.ar.banks,
    d.ar.repDrop, (d.ev.srcs, d.ev.recs), d.lb, rfl⟩

theorem Dev.OnlyChecked.trans {d e f : Dev} (h : d.OnlyChecked e) (k : e.OnlyChecked f) : d.OnlyChecked f := by
  obtain ⟨_, _, _, _, _, _, _, _, _, _, _, _, rfl⟩ := h
  obtain ⟨_, _, _, _, _, _, _, _, _, _, _, _, rfl⟩ := k
  exact ⟨_, _, _, _, _, _, _, _, _, _, _, _, rfl⟩

theorem Dev.OnlyLb.checked {d e : Dev} (h : d.OnlyLb e) : d.OnlyChecked e := by
  obtain ⟨x, rfl⟩ := h
  exact ⟨d.draws, d.ar.log, d.ar.logNewest, d.ar.logHead, d.ar.logWrapped, d.ar.logOvw, d.ar.corr, d.ar.uncorr, d.ar.banks,
    d.ar.repDrop, (d.ev.srcs, d.ev.recs), x, rfl⟩

theorem Dev.fire_checked (d : Dev) (n : Nat) : d.OnlyChecked (d.fire n) := by
  obtain ⟨x, r, h⟩ := d.fire_frame n
  exact ⟨d.draws, d.ar.log, d.ar.logNewest, d.ar.logHead, d.ar.logWrapped, d.ar.logOvw, d.ar.corr, d.ar.uncorr, d.ar.banks,
    d.ar.repDrop, (x, r), d.lb, h⟩

theorem Dev.logErr_checked (d : Dev) (a o : Nat) (k : LogKind) (s : Nat) (p : Bool) (c : Locus) :
    d.OnlyChecked (d.logErr a o k s p c) := by
  obtain ⟨log, n, hd, w, v, h⟩ := d.logErr_frame a o k s p c
  exact ⟨d.draws, log, n, hd, w, v, d.ar.corr, d.ar.uncorr, d.ar.banks, d.ar.repDrop, (d.ev.srcs, d.ev.recs), d.lb, h⟩

theorem Dev.queueRepair_checked (d : Dev) (a : Nat) : d.OnlyChecked (d.queueRepair a) := by
  unfold Dev.queueRepair
  simp only
  split
  · exact .refl d
  · split
    · exact ⟨d.draws, d.ar.log, d.ar.logNewest, d.ar.logHead, d.ar.logWrapped, d.ar.logOvw, d.ar.corr, d.ar.uncorr, _,
        d.ar.repDrop, (d.ev.srcs, d.ev.recs), d.lb, rfl⟩
    · exact ⟨d.draws, d.ar.log, d.ar.logNewest, d.ar.logHead, d.ar.logWrapped, d.ar.logOvw, d.ar.corr, d.ar.uncorr,
        d.ar.banks, _, (d.ev.srcs, d.ev.recs), d.lb, rfl⟩

theorem Dev.noteCheck_frame (d : Dev) (a o : Nat) (r : Decoded) : d.OnlyChecked (d.noteCheck a o r) := by
  have hcorr : ∀ (d : Dev) (n : Nat), d.OnlyChecked { d with ar := { d.ar with corr := n } } := fun d n =>
    ⟨d.draws, d.ar.log, d.ar.logNewest, d.ar.logHead, d.ar.logWrapped, d.ar.logOvw, n, d.ar.uncorr, d.ar.banks,
      d.ar.repDrop, (d.ev.srcs, d.ev.recs), d.lb, rfl⟩
  have hunc : ∀ (d : Dev) (n : Nat), d.OnlyChecked { d with ar := { d.ar with uncorr := n } } := fun d n =>
    ⟨d.draws, d.ar.log, d.ar.logNewest, d.ar.logHead, d.ar.logWrapped, d.ar.logOvw, d.ar.corr, n, d.ar.banks,
      d.ar.repDrop, (d.ev.srcs, d.ev.recs), d.lb, rfl⟩
  have hlog : ∀ k, d.OnlyChecked ((d.captureCheck a o r.syndrome r.parity false).logErr a o k r.syndrome r.parity
      r.locus) := fun k => (d.captureCheck_frame _ _ _ _ _).checked.trans (Dev.logErr_checked _ _ _ _ _ _ _)
  unfold Dev.noteCheck
  split
  · exact .refl d
  · simp only
    split
    · exact ((hlog _).trans (hcorr _ _)).trans (Dev.fire_checked _ _)
    · exact (((hlog _).trans (hcorr _ _)).trans (Dev.fire_checked _ _)).trans (Dev.queueRepair_checked _ _)
  · exact ((hlog _).trans (hunc _ _)).trans (Dev.fire_checked _ _)

theorem Dev.replayRead_frame (d : Dev) (a o : Nat) (r : Decoded) : d.OnlyLb (d.replayRead a o r).1 := by
  unfold Dev.replayRead
  split
  · exact .refl d
  · simp only
    split
    · exact .refl d
    · split
      · exact .refl d
      · exact ⟨_, rfl⟩

/-- A read changes no stored word. -/
theorem Dev.readArr_frame (d : Dev) (o a : Nat) : d.OnlyChecked (d.readArr o a).1 := by
  have hd : ∀ (d : Dev) (n : Nat), d.OnlyChecked { d with draws := n } := fun d n =>
    ⟨n, d.ar.log, d.ar.logNewest, d.ar.logHead, d.ar.logWrapped, d.ar.logOvw, d.ar.corr, d.ar.uncorr, d.ar.banks,
      d.ar.repDrop, (d.ev.srcs, d.ev.recs), d.lb, rfl⟩
  have h1 : d.OnlyChecked (if d.bankDead a then { d with draws := d.draws + 1 } else d) := by
    split
    · exact hd d _
    · exact .refl d
  unfold Dev.readArr
  simp only
  generalize (if d.bankDead a then { d with draws := d.draws + 1 } else d : Dev) = e at h1 ⊢
  split
  · exact (h1.trans (Dev.replayRead_frame e a o _).checked).trans (Dev.noteCheck_frame _ _ _ _)
  · exact h1.trans (Dev.noteCheck_frame _ _ _ _)

theorem Dev.readRun_frame (d : Dev) (o a : Nat) : ∀ n, d.OnlyChecked (d.readRun o a n).1
  | 0 => .refl d
  | n + 1 => (d.readArr_frame o a).trans (Dev.readRun_frame (d.readArr o a).1 o (a + 1) n)

/-- After a read every word reads as before. -/
theorem Dev.OnlyChecked.rawGet {d e : Dev} (h : d.OnlyChecked e) (a : Nat) : e.rawGet a = d.rawGet a := by
  obtain ⟨_, _, _, _, _, _, _, _, _, _, _, _, rfl⟩ := h
  rfl

/-- After a read the memory list is as before. -/
theorem Dev.OnlyChecked.mem {d e : Dev} (h : d.OnlyChecked e) : e.ar.mem = d.ar.mem := by
  obtain ⟨_, _, _, _, _, _, _, _, _, _, _, _, rfl⟩ := h
  rfl

/-! ### Writes of the array -/

/-- The two devices differ in their keel stores at most. -/
def Dev.OnlyKl (d e : Dev) : Prop := ∃ x, e = { d with kl := x }

theorem Dev.beginRead_frame (d : Dev) : d.OnlyKl d.beginRead := by
  unfold Dev.beginRead
  split
  · exact ⟨d.kl, rfl⟩
  · split
    · exact ⟨_, rfl⟩
    · exact ⟨d.kl, rfl⟩

theorem Dev.noteDirty_frame (d : Dev) (a : Nat) : d.OnlyKl (d.noteDirty a) := by
  unfold Dev.noteDirty
  split
  · split
    · split
      · exact ⟨_, rfl⟩
      · exact ⟨d.kl, rfl⟩
    · simp only
      split
      · obtain ⟨x, h⟩ := Dev.beginRead_frame _
        rw [h]
        exact ⟨x, rfl⟩
      · obtain ⟨x, h⟩ := Dev.beginRead_frame _
        rw [h]
        exact ⟨x, rfl⟩
  · exact ⟨d.kl, rfl⟩

/-- What a write of an array word may change: the stored word, the scrubber's mark, the dirty-page book, the logbook. -/
def Dev.OnlyWritten (d e : Dev) : Prop := ∃ m t q x y, e = { d with
  ar := { d.ar with mem := m, stripe := t, banks := q }, kl := x, lb := y }

theorem Dev.OnlyWritten.refl (d : Dev) : d.OnlyWritten d :=
  ⟨d.ar.mem, d.ar.stripe, d.ar.banks, d.kl, d.lb, rfl⟩

theorem Dev.OnlyWritten.trans {d e f : Dev} (h : d.OnlyWritten e) (k : e.OnlyWritten f) : d.OnlyWritten f := by
  obtain ⟨_, _, _, _, _, rfl⟩ := h
  obtain ⟨_, _, _, _, _, rfl⟩ := k
  exact ⟨_, _, _, _, _, rfl⟩

/-- A write changes the array's list, its stripe buffer and its scrub marks, the keel store and the logbook alone; its list and
buffer are those of the stored code word. -/
theorem Dev.writeArr_effect (d : Dev) (a : Nat) (w : Word) (h : d.writeHeld a = false) : ∃ q x y, d.writeArr a w =
    { d.rawSet a (encodeWord w) with ar := { (d.rawSet a (encodeWord w)).ar with banks := q }, kl := x, lb := y } := by
  unfold Dev.writeArr
  rw [h, if_neg (by decide)]
  obtain ⟨x, hx⟩ := Dev.emitWrite_frame (((d.rawSet a (encodeWord w)).touchScrub a)) a w
  rw [hx]
  obtain ⟨y, hy⟩ := Dev.noteDirty_frame _ a
  rw [hy]
  exact ⟨_, y, x, rfl⟩

/-- A write that is held changes nothing. -/
theorem Dev.writeArr_held {d : Dev} {a : Nat} (h : d.writeHeld a = true) (w : Word) : d.writeArr a w = d := by
  simp [Dev.writeArr, h]

theorem Dev.writeArr_frame (d : Dev) (a : Nat) (w : Word) : d.OnlyWritten (d.writeArr a w) := by
  rcases h : d.writeHeld a
  · obtain ⟨q, x, y, he⟩ := d.writeArr_effect a w h
    obtain ⟨m, t, hr⟩ := d.rawSet_frame a (encodeWord w)
    rw [he, hr]
    exact ⟨_, _, _, _, _, rfl⟩
  · rw [Dev.writeArr_held h]
    exact .refl d

theorem Dev.writeRun_frame : ∀ (ws : List Word) (d : Dev) (a : Nat), d.OnlyWritten (d.writeRun a ws)
  | [], d, _ => .refl d
  | w :: ws, d, a => (d.writeArr_frame a w).trans (writeRun_frame ws (d.writeArr a w) (a + 1))

/-- Whether a write is held does not depend on what writes change. -/
theorem Dev.OnlyWritten.writeHeld {d e : Dev} (h : d.OnlyWritten e) (a : Nat) : e.writeHeld a = d.writeHeld a := by
  obtain ⟨_, _, _, _, _, rfl⟩ := h
  rfl

/-- A write keeps the memory canonical. -/
theorem Dev.writeArr_wf {d : Dev} (h : Memory.wf d.ar.mem = true) (a : Nat) (w : Word) :
    Memory.wf (d.writeArr a w).ar.mem = true := by
  rcases hh : d.writeHeld a
  · obtain ⟨q, x, y, he⟩ := d.writeArr_effect a w hh
    rw [he]
    exact Dev.rawSet_wf h a _
  · rw [Dev.writeArr_held hh]
    exact h

/-- A written word reads as the code word of its data. -/
theorem Dev.rawGet_writeArr_same {d : Dev} (h : Memory.wf d.ar.mem = true) {a : Nat} (hh : d.writeHeld a = false)
    (w : Word) : (d.writeArr a w).rawGet a = encodeWord w := by
  obtain ⟨q, x, y, he⟩ := d.writeArr_effect a w hh
  rw [he]
  exact (Dev.rawGet_congr (d := d.rawSet a (encodeWord w)) rfl rfl a).trans (Dev.rawGet_rawSet_same h a _)

/-- Another word reads as before. -/
theorem Dev.rawGet_writeArr_other {d : Dev} (h : Memory.wf d.ar.mem = true) {a b : Nat} (hb : b ≠ a) (w : Word) :
    (d.writeArr a w).rawGet b = d.rawGet b := by
  rcases hh : d.writeHeld a
  · obtain ⟨q, x, y, he⟩ := d.writeArr_effect a w hh
    rw [he]
    exact (Dev.rawGet_congr (d := d.rawSet a (encodeWord w)) rfl rfl b).trans (Dev.rawGet_rawSet_other h hb _)
  · rw [Dev.writeArr_held hh]

/-- A run of writes keeps the memory canonical. -/
theorem Dev.writeRun_wf : ∀ (ws : List Word) {d : Dev} (a : Nat), Memory.wf d.ar.mem = true →
    Memory.wf (d.writeRun a ws).ar.mem = true
  | [], _, _, h => h
  | w :: ws, _, a, h => writeRun_wf ws (a + 1) (Dev.writeArr_wf h a w)

/-- A run of writes changes no word outside its addresses. -/
theorem Dev.rawGet_writeRun_other : ∀ (ws : List Word) {d : Dev} {a b : Nat}, Memory.wf d.ar.mem = true →
    (b < a ∨ a + ws.length ≤ b) → (d.writeRun a ws).rawGet b = d.rawGet b
  | [], _, _, _, _, _ => rfl
  | w :: ws, d, a, b, h, hb => by
    simp only [List.length_cons] at hb
    have h1 := rawGet_writeRun_other ws (d := d.writeArr a w) (a := a + 1) (b := b) (Dev.writeArr_wf h a w) (by omega)
    exact h1.trans (Dev.rawGet_writeArr_other h (by omega) w)

/-- A run of writes of which none is held leaves its words. -/
theorem Dev.rawGet_writeRun_same (ws : List Word) : ∀ {d : Dev} {a : Nat}, Memory.wf d.ar.mem = true →
    (∀ b, a ≤ b → b < a + ws.length → d.writeHeld b = false) → ∀ i, i < ws.length →
    (d.writeRun a ws).rawGet (a + i) = encodeWord (ws.getD i 0#14) := by
  induction ws with
  | nil => intro d a _ _ i hi; exact absurd hi (Nat.not_lt_zero i)
  | cons w ws ih =>
    intro d a h hh i hi
    have hw := Dev.writeArr_wf h a w
    have hs : d.writeRun a (w :: ws) = (d.writeArr a w).writeRun (a + 1) ws := rfl
    rw [hs]
    simp only [List.length_cons] at hi hh
    cases i with
    | zero =>
      exact (Dev.rawGet_writeRun_other ws hw (by omega)).trans
        (Dev.rawGet_writeArr_same h (hh a (by omega) (by omega)) w)
    | succ i =>
      have e : a + (i + 1) = a + 1 + i := by omega
      rw [e, ih hw (fun b hb1 hb2 => by
        rw [(d.writeArr_frame a w).writeHeld]
        exact hh b (by omega) (by omega)) i (by omega)]
      rfl

end Sys2Proof.Machine
end

