-- ==== Sys2Proof/WellFormed.lean ====
section
/-!
DEFINITION. Which commands are well formed: the bounds that the types of Syntax.lean do not carry. An ill-formed
command is one no environment of the K14 can send; its meaning is still total.
-/
namespace Sys2Proof

/-- Bytes that a receiver takes as a frame. -/
def wholeFrame (bs : List Byte) : Bool :=
  match Machine.readFrame bs with
  | .frame _ _ => true
  | _ => false

/-- Only the last word of a WRITE may lack its high byte (R164). -/
def wordsOk (ws : List WireWord) : Bool := ws.dropLast.all WireWord.whole

/-- Well-formedness of a command, by constructor. -/
def Instr.wf : Instr → Bool
  | .read _ _ head _ _ => headSpells .read head
  | .write _ _ head words => headSpells .write head && wordsOk words
  | .readStatus _ _ head _ _ => headSpells .readStatus head
  | .readSfdp _ _ head _ => headSpells .readSfdp head
  | .resetEnable _ _ head => headSpells .resetEnable head
  | .resetPort _ _ head _ => headSpells .resetPort head
  | .unknownCommand _ _ head => headUnknown head
  | .windowEntryStart _ e => decide (e < 256)
  | .windowEntryEnd _ e => decide (e < 256)
  | .pilotException _ _ _ _ frame => decide (frame.length = 6)
  | .wakeComplete _ _ a b => decide (a.length = 128) && decide (b.length = 128)
  | .copyCheckComplete _ c => decide (c.length ≤ 524288)
  | .updateCommitComplete _ c _ => decide (c.length ≤ 524288)
  | .mark _ _ _ _ _ _ fwd => decide (135 ≤ fwd) && decide (fwd ≤ 144)
  | .throughFrameForward _ _ bs => wholeFrame bs
  | .enum _ _ bs => Machine.spellsFrame .enum bs
  | .enumEnd _ _ bs => Machine.spellsFrame .enumEnd bs
  | .ringmap _ _ bs => Machine.spellsFrame .ringmap bs
  | .fold _ _ bs => Machine.spellsFrame .fold bs
  | .rep _ _ bs => Machine.spellsFrame .rep bs
  | .belay _ _ bs => Machine.spellsFrame .belay bs
  | .query _ _ bs => Machine.spellsFrame .query bs
  | .trep _ _ bs => Machine.spellsFrame .trep bs
  | .qnone _ _ bs => Machine.spellsFrame .qnone bs
  | .semclaim _ _ bs => Machine.spellsFrame .semclaim bs
  | .semrel _ _ bs => Machine.spellsFrame .semrel bs
  | .semstate _ _ bs => Machine.spellsFrame .semstate bs
  | .peer _ _ bs => Machine.spellsFrame .peer bs
  | .deliv _ _ bs => Machine.spellsFrame .deliv bs
  | .keep _ _ bs => Machine.spellsFrame .keep bs
  | .passAddressedFrame _ _ bs => wholeFrame bs
  | .frameCrcFailure _ _ bs aborted => aborted || decide (Machine.readFrame bs = .bad)
  | .malformedFrame _ _ bs => !wholeFrame bs && decide (Machine.readFrame bs ≠ .bad)
  | _ => true

end Sys2Proof
end

