-- ==== Sys2Proof/Tests/Slice0.lean ====
section
/-!
SUPPORT. The model's own tests: well-formedness refuses an ill-formed term for each of its checks; bytes written out from the spec's
tables spell what they stand for; single steps with results worked out from the spec; and, for every statement with hypotheses,
operands and a state that meet them, clause by clause, at the ends of their ranges.
-/
namespace Sys2Proof.Tests
open Sys2Proof Sys2Proof.Machine

/-! ### Well-formedness -/

theorem test_wf_header_spells_the_command :
    (Instr.read 0 .a [0x02#8, 0, 0, 0] [67] false).wf = false ∧ (Instr.read 0 .a [0x0B#8, 0, 0, 0] [67] false).wf = true
    ∧ (Instr.write 0 .a [] []).wf = false ∧ (Instr.write 0 .a [0x02#8, 0xFD, 0, 0, 0, 0] []).wf = true
    ∧ (Instr.readStatus 0 .b [0x0B#8, 0, 0, 0] [8] false).wf = false ∧ (Instr.readStatus 0 .b [0x05#8] [8] false).wf = true
    ∧ (Instr.readSfdp 0 .a [0x5B#8, 0, 0, 0] [8]).wf = false ∧ (Instr.readSfdp 0 .a [0x5A#8, 0, 0, 0] [8]).wf = true
    ∧ (Instr.resetEnable 0 .a [0x99#8]).wf = false ∧ (Instr.resetEnable 0 .a [0x66#8]).wf = true
    ∧ (Instr.resetPort 0 .a [0x66#8] 9).wf = false ∧ (Instr.resetPort 0 .a [0x99#8, 0x66] 9).wf = true
    ∧ (Instr.unknownCommand 0 .a []).wf = false ∧ (Instr.unknownCommand 0 .a [0x03#8]).wf = true := by decide

theorem test_wf_last_word_alone_may_be_cut :
    (Instr.write 0 .a [0x02#8, 0, 0, 0] [{ lo := 0x80#8, hi := none, delta := 9 }, .of 0 true true 9]).wf = false
    ∧ (Instr.write 0 .a [0x02#8, 0, 0, 0] [.of 0 true true 9, { lo := 0x80#8, hi := none, delta := 9 }]).wf = true := by decide

theorem test_wf_bounds_entries : (Instr.windowEntryStart 0 256).wf = false ∧ (Instr.windowEntryEnd 0 256).wf = false
    ∧ (Instr.windowEntryStart 0 255).wf = true ∧ (Instr.windowEntryEnd 0 255).wf = true := by decide

theorem test_wf_frame_has_six_words : (Instr.pilotException 0 5 0 0 [0, 0, 0, 0, 0]).wf = false
    ∧ (Instr.pilotException 0 5 0 0 [0, 0, 0, 0, 0, 0]).wf = true := by decide

theorem test_wf_headers_have_128_bytes :
    (Instr.wakeComplete 0 ⟨[], 0⟩ [] (List.replicate 128 0)).wf = false
    ∧ (Instr.wakeComplete 0 ⟨[], 0⟩ (List.replicate 128 0) []).wf = false
    ∧ (Instr.wakeComplete 0 ⟨[], 0⟩ (List.replicate 128 0) (List.replicate 128 0)).wf = true := by
  simp only [Instr.wf, List.length_replicate]
  decide

theorem test_wf_bounds_copies : (Instr.copyCheckComplete 0 (List.replicate 524289 0)).wf = false
    ∧ (Instr.updateCommitComplete 0 (List.replicate 524289 0) true).wf = false
    ∧ (Instr.copyCheckComplete 0 (List.replicate 524288 0)).wf = true := by
  simp only [Instr.wf, List.length_replicate]
  decide

theorem test_wf_bounds_forwarding : (Instr.mark 0 .up 0 0 0 0 134).wf = false
    ∧ (Instr.mark 0 .up 0 0 0 0 145).wf = false ∧ (Instr.mark 0 .up 0 0 0 0 135).wf = true
    ∧ (Instr.mark 0 .up 0 0 0 0 144).wf = true := by decide

/-! ### What bits spell -/

theorem test_no_row_has_bits : decodeTableWord 16 0x1F08 = none ∧ decodeTableWord 0 0 = none := by decide

/-- R160, R161, R165: the headers of the six commands in each protocol. -/
theorem test_headers_1s : decodeHead true [0x05#8] = .whole .readStatus 0 ∧ decodeHead true [0x0B#8, 0x3B, 0xFF, 0xFE] = .whole .read 0x3BFFFE
    ∧ decodeHead true [0x02#8, 0x00, 0x00, 0x0A] = .whole .write 10 ∧ decodeHead true [0x5A#8, 0x00, 0x01, 0x00] = .whole .readSfdp 0x100
    ∧ decodeHead true [0x66#8] = .whole .resetEnable 0 ∧ decodeHead true [0x99#8] = .whole .resetPort 0
    ∧ decodeHead true [0x0B#8, 0x3B, 0xFF] = .cut .read ∧ decodeHead true [0x03#8] = .unknown ∧ decodeHead true [] = .none := by decide

theorem test_headers_8d : decodeHead false [0x05#8, 0xFA, 0, 0, 0, 0] = .whole .readStatus 0
    ∧ decodeHead false [0x0B#8, 0xF4, 0x00, 0x3B, 0xFF, 0xFE] = .whole .read 0x3BFFFE
    ∧ decodeHead false [0x02#8, 0xFD, 0xFF, 0xFF, 0xFF, 0xFF] = .whole .write 0xFFFFFFFF
    ∧ decodeHead false [0x5A#8, 0xA5, 0x00, 0x00, 0x01, 0x00] = .whole .readSfdp 0x100
    ∧ decodeHead false [0x66#8, 0x99] = .whole .resetEnable 0 ∧ decodeHead false [0x99#8, 0x66] = .whole .resetPort 0
    ∧ decodeHead false [0x0B#8, 0x0B, 0, 0, 0, 0] = .unknown ∧ decodeHead false [0x0B#8] = .none := by decide

/-- R162: a word crosses low byte first, its sidebands in bits 7. -/
theorem test_wire_bytes : wireBytes 0x2A55#14 true false = (0xD5#8, 0x54#8) ∧ wireBytes 0x2A55#14 false true = (0x55#8, 0xD4#8) := by decide

/-- R110: the check value that the rule gives. -/
theorem test_crc32_check_value : crc32 [0x31#8, 0x32, 0x33, 0x34, 0x35, 0x36, 0x37, 0x38, 0x39] = 0xCBF43926 := by decide +kernel

/-- R386 to R388: a DELIV of node 3 to node 1 with link sequence 5, bit by bit; its CRC-32 was worked out apart from the model. -/
def delivBytes : List Byte :=
  [0xFE, 0x00, 0x01, 0x14, 0xC0, 0x01, 0x00, 0x00, 0, 0, 0, 0, 0, 0, 0, 0xCD, 0x79, 0x98, 0xEE]

/-- R386 to R388: a BELAY of record 9 from node 2 to node 1 with link sequence 0xABC after 2 hops. -/
def belayBytes : List Byte :=
  [0x96, 0x00, 0x01, 0xF0, 0xEA, 0x01, 0x01, 0x00, 0x09, 0, 0, 0, 0, 0, 0, 0xFD, 0x4E, 0x6C, 0xCE]

/-- R386 to R388: a broadcast FOLD: the hop above node 2 is broken. -/
def foldBytes : List Byte :=
  [0x84, 0x00, 0x00, 0x00, 0xC0, 0x01, 0x00, 0x08, 0x02, 0, 0, 0, 0, 0, 0, 0xED, 0xDB, 0x39, 0x19]

/-- A frame that is no broadcast and no reply, with no hop yet. -/
def frame (typ : FrameType) (src dst : Nat) (payload : List Word) : Frame :=
  { typ := typ, src := src, dst := dst, hops := 0, bcast := false, reply := false, payload := payload }

theorem test_frame_bytes : readFrame delivBytes = .frame (frame .deliv 3 1 [0, 0, 0, 0]) 5
    ∧ readFrame belayBytes = .frame { frame .belay 2 1 [9, 0, 0, 0] with hops := 2 } 0xABC
    ∧ readFrame foldBytes = .frame { frame .fold 2 0 [2, 0, 0, 0] with bcast := true } 0 := by decide +kernel

theorem test_frame_wire : (frame .deliv 3 1 [0]).wire 5 = delivBytes
    ∧ Frame.wire { frame .belay 2 1 [9, 0] with hops := 2 } 0xABC = belayBytes := by decide +kernel

/-- R393: one bit wrong, or a byte short, and the CRC fails. R389: a class that is not the type's is malformed. -/
theorem test_bad_frames : readFrame (delivBytes.set 8 1) = .bad ∧ readFrame delivBytes.dropLast = .bad
    ∧ readFrame (let h := 0xEE#8 :: delivBytes.tail.take 14; h ++ toBytes (crc32 h) 4) = .malformed 2 5 := by decide +kernel

theorem test_wf_frames : (Instr.deliv 0 .up belayBytes).wf = false ∧ (Instr.deliv 0 .up delivBytes).wf = true
    ∧ (Instr.belay 0 .up delivBytes).wf = false ∧ (Instr.fold 0 .up foldBytes).wf = true ∧ (Instr.fold 0 .up []).wf = false
    ∧ (Instr.throughFrameForward 0 .up delivBytes.tail).wf = false ∧ (Instr.passAddressedFrame 0 .up delivBytes.tail).wf = false
    ∧ (Instr.frameCrcFailure 0 .up delivBytes false).wf = false ∧ (Instr.frameCrcFailure 0 .up delivBytes true).wf = true
    ∧ (Instr.malformedFrame 0 .up delivBytes).wf = false ∧ (Instr.malformedFrame 0 .up []).wf = false := by decide +kernel

/-- A type's check refuses another type's bytes. -/
theorem test_wf_frame_types : (Instr.enum 0 .up delivBytes).wf = false ∧ (Instr.enumEnd 0 .up delivBytes).wf = false
    ∧ (Instr.ringmap 0 .up delivBytes).wf = false ∧ (Instr.rep 0 .up delivBytes).wf = false ∧ (Instr.query 0 .up delivBytes).wf = false
    ∧ (Instr.trep 0 .up delivBytes).wf = false ∧ (Instr.qnone 0 .up delivBytes).wf = false ∧ (Instr.semclaim 0 .up delivBytes).wf = false
    ∧ (Instr.semrel 0 .up delivBytes).wf = false ∧ (Instr.semstate 0 .up delivBytes).wf = false ∧ (Instr.peer 0 .up delivBytes).wf = false
    ∧ (Instr.keep 0 .up delivBytes).wf = false := by decide +kernel

/-- R385: the check of the worked example's marker of tick 7,000,000 as node 1 sends it on; worked out apart from the model. -/
theorem test_mark_check : markBytes 7000000 3264 1 = [0xC0#8, 0xCF, 0x6A, 0, 0, 0, 0, 0xC0, 0x0C, 0x00, 0x01, 0x00]
    ∧ markCheck 7000000 3264 1 = 0x3452 := by decide +kernel

/-! ### States -/

/-- Every bank's rota gives slot 32 n + k to owner k. -/
def turns : Timetable := { rota := List.replicate 4 (List.range 32) }

/-- A device with VDD present, in a mode, at slot 640 of tick 100, with both ports ready; in `dt` slots a slot of owner `dt` comes. -/
def dev (m : Mode) : Dev :=
  { pw := { mode := m, pfailPin := false, onPin := true }, cf := { copySel := 0, run := turns, hold := turns, store := turns },
    ck := { running := true, active := .run, tick := 100, curLen := 100000, slot := 640 }, now := 1000000,
    pa := { vddio := true, ready := true }, pb := { vddio := true, ready := true } }

/-- A state with nothing waiting. -/
def st (d : Dev) : State := { pending := [], dev := d }

/-- The device as a command finds it after some slots. -/
abbrev aft (dt : Nat) (d : Dev) : Dev := (st d).after dt

/-- The device with window entries in its RUN timetable. -/
def entries (ws : List Window) (d : Dev) : Dev := { d with cf := { d.cf with run := { turns with windows := ws } } }

/-- A command of a port. -/
def cmd (ph : CmdPhase) (ws : List Nat) : Cmd :=
  { words := ws.map fun w => BitVec.ofNat 14 w, phase := ph, nextAt := 0, acceptAt := 0, acceptTick := 100, reserved := 0 }

/-- A device whose port A has a command in progress. -/
def busy (m : Mode) (c : Cmd) : Dev := { dev m with pl := { cmdA := some c } }

/-- A ring of four nodes, of which this is one, both links in use. -/
def ringDev (m : Mode) (node : Nat) (up dn : LinkSt) : Dev :=
  { dev m with cf := { (dev m).cf with ringNodes := 4 }, rg :=
      { up := { up with everActive := true }, dn := { dn with everActive := true }, nodeId := node, numbered := true,
        dMax := 3, mapped := true, cfgAnchor := decide (node = 0) } }

/-- An ACTIVE link. -/
def act : LinkSt := { state := .active, credits := [8, 8, 4, 4], everActive := true }

/-- A link in a training step. -/
def trn (step : Nat) : LinkSt := { state := .training, step := step }

/-! ### Statements' hypotheses: the machine, supplies, pins -/

/-- VDD is absent. -/
def dark : Dev := { dev .off with pw := { powered := false } }

theorem witness_unpoweredDevice :
    (st dark).dev.pw.powered = false ∧ (∃ t, exec (.onHigh 5) (st dark) = .next t)
    ∧ (∃ t, exec (.vddioRise 0 .b true) (st dark) = .next t) := ⟨rfl, ⟨_, rfl⟩, _, rfl⟩

theorem witness_memoryCanonicalKept :
    (st (dev .run)).memoryCanonical ∧ ∃ t, step { st (dev .run) with pending := [.pilotHoldWrite 0 0 1] } = .next t :=
  ⟨rfl, _, rfl⟩

theorem witness_mailboxBooksKept : (∀ c ∈ (dev .run).cm.chans, c.words + c.free = 16 ∧ 16 ≤ c.stage.length)
    ∧ ∃ t, step { st (dev .run) with pending := [.mbxPost 0 .portA 0 16#14] } = .next t := ⟨by decide, _, rfl⟩

/-- OFF, with PFAIL# deasserted and ON low. -/
def offDev : Dev := { dev .off with pw := { pfailPin := false } }

theorem witness_suppliesAndJtag :
    (aft 3 (dev .run)).pw.powered = true ∧ (aft 3 dark).pw.powered = false ∧ ((aft 3 (dev .run)).port .a).vddio = true
    ∧ ((aft 0 offDev).pw.powered = true
      ∧ ((aft 0 offDev).pw.mode = .off → (aft 0 offDev).pfail = true ∨ ((aft 0 offDev).on = false ∧ (aft 0 offDev).wakeClosed = false)))
    ∧ (((aft 9 (dev .run)).port .b).vddio = true ∧ (aft 9 (dev .run)).pw.mode.responder = false)
    ∧ ((aft 0 dark).port .a).vddio = true ∧ ((aft 0 { dark with pa := {} }).port .a).vddio = false
    ∧ ((aft 0 (dev .off)).pw.mode = .off ∧ (aft 0 (dev .off)).pfail = false ∧ (aft 0 (dev .off)).on = true) := by
  decide

/-- A start that waits in WAKE. -/
def wakeDev (short : Bool) : Dev := { dev .wake with pw := { (dev .wake).pw with attempting := true, shortWake := short } }

/-- RETAIN with every wake source enabled. -/
def asleep (entry : Bool) : Dev :=
  { dev .retain with
    pw := { (dev .retain).pw with onPin := false, wakeEn := 63, wakeTmr := 1, retainEntry := entry },
    ck := { (dev .retain).ck with running := false, active := .none } }

theorem witness_pinLevels :
    ((aft 1 (dev .store)).pw.onPin = true ∧ (aft 1 (dev .store)).pw.pfailPin = false
      ∧ (aft 1 (dev .store)).pw.mode.timetabled = true ∧ (aft 1 (dev .store)).pw.testHigh = false)
    ∧ (State.reset.dev.pw.powered = true ∧ (State.reset.after 1).pw.onPin = false ∧ (State.reset.after 1).pw.pfailPin = true)
    ∧ (let d := { dev .replay with pw := { mode := .replay } };
      (aft 1 d).pw.mode.timetabled = true ∧ (aft 1 d).pw.onPin = false ∧ (aft 1 d).pw.pfailPin = true) := by decide

theorem witness_powerTransitions :
    (let d := aft 2 offDev; d.pw.mode = .off ∧ d.jt.ir ≠ .extest ∧ d.pw.onPin = false ∧ d.pw.testHigh = false ∧ d.pfail = false)
    ∧ (let d := aft 2 { offDev with pw := { offDev.pw with pfailPin := true, onPin := true } };
      d.pw.mode = .off ∧ d.pw.pfailPin = true ∧ d.pw.onPin = true ∧ d.pw.clockLost = false)
    ∧ (let d := aft 2 (wakeDev false); d.pw.mode.starting = true ∧ d.pfail = false ∧ d.pw.onPin = true ∧ d.pw.attempting = true)
    ∧ (let d := aft 2 (dev .wake); d.pw.mode = .wake ∧ d.pw.attempting = false ∧ d.wakeClosed = false ∧ d.pw.onPin = true)
    ∧ (let d := aft 2 (dev .load); d.pw.mode.starting = true ∧ d.pw.mode ≠ .wake ∧ d.pw.testHigh = false)
    ∧ (let d := aft 2 (asleep false); d.pw.mode = .retain ∧ d.pw.retainEntry = false ∧ d.pw.onPin = false
      ∧ d.pfail = false ∧ (d.port .b).vddio = true ∧ (d.port .b).rstLow = false
      ∧ d.pw.wakeEn.testBit 3 = true ∧ d.pw.wakeEn.testBit 4 = true ∧ d.pw.wakeTmr ≠ 0 ∧ d.pw.wakeEn.testBit 5 = true)
    ∧ (let d := aft 2 (asleep true); d.pw.mode = .retain ∧ d.pw.retainEntry = true ∧ d.kl.seqStart = none
      ∧ d.pfail = false ∧ d.pw.entryWake = none)
    ∧ (let d := aft 2 { asleep true with pw := { (asleep true).pw with entryWake := some .timer } };
      d.pw.entryWake = some .timer ∧ d.pfail = false)
    ∧ (let d := aft 2 { wakeDev true with pw := { (wakeDev true).pw with wakeAt := 1000002, wakeSrc := .timer, wakeEn := 63 } };
      d.pw.mode = .wake ∧ d.pw.shortWake = true ∧ d.pw.wakeAt = d.now ∧ d.pw.wakeSrc = .timer ∧ (d.port .a).rstLow = false
      ∧ d.pw.wakeEn.testBit 3 = true)
    ∧ ((aft 2 (dev .run)).pw.mode ≠ .retain ∧ (aft 2 (dev .run)).pw.mode ≠ .wake ∧ (aft 2 (dev .retain)).pw.wakeTmr = 0
      ∧ (aft 2 (dev .retain)).pw.wakeEn.testBit 3 = false ∧ (aft 2 (dev .retain)).pw.wakeEn.testBit 5 = false) := by decide

/-- LOAD with copy A to be checked and copy B after it. -/
def loadDev : Dev :=
  { dev .load with cf := { cands := [{ copy := .copyA, seq := 2, header := [] }, { copy := .copyB, seq := 1, header := [] }] } }

theorem witness_startSequence :
    (let d := aft 7 (wakeDev false); d.pw.mode = .wake ∧ d.pw.attempting = true ∧ d.pw.offLatched = false ∧ d.pw.shortWake = false)
    ∧ (let d := aft 7 (wakeDev true); d.pw.shortWake = true ∧ d.pw.limpCause ≠ 5)
    ∧ (let d := aft 7 loadDev; d.pw.mode = .load ∧ d.cf.cands.length = 2 ∧ d.pw.offLatched = false ∧ copyReason [] false ≠ 0
      ∧ ∀ x ∈ d.cf.cands.tail, x.copy ≠ .copyA)
    ∧ (let d := aft 7 (dev .fill); d.pw.mode = .fill ∧ d.ar.stripe = none ∧ d.ks.slots = 0 ∧ ∀ h ∈ d.ar.holds, h.persistent = false)
    ∧ (let d := aft 7 (dev .test); d.pw.mode = .test ∧ d.pw.testDone = false ∧ d.pw.offLatched = false)
    ∧ (let d := aft 7 { dev .test with pw := { mode := .test, offLatched := true } };
      d.pw.offLatched = true ∧ d.pw.mode.starting = true ∧ d.on = false ∧ d.wakeClosed = false) := by decide +kernel

/-- The short path's CRC is the one RETAIN kept: the device that WAKE_COMPLETE finds, whatever its CRC is. -/
theorem witness_shortPath :
    let d := { wakeDev true with pw := { (wakeDev true).pw with retCrc := (aft 7 (wakeDev true)).cfgCrcNow } }
    (aft 7 d).cfgCrcNow = (aft 7 d).pw.retCrc := by decide +kernel

/-! ### Ports and the array -/

/-- A device with something at port A. -/
def holding (m : Mode) (f : PortSt → PortSt) : Dev := { dev m with pa := f (dev m).pa }

/-- A merge entry of address 5 with its low half, or with both. -/
def entry5 (hi : Option (BitVec 7)) : MergeEntry := { addr := 5, lo := some 1, hi := hi, tick := 98 }

/-- A word on its way into the port. -/
def incoming (addr : Nat) (w : WireWord) : Incoming := { addr := addr, word := w, at' := 1000000, last := true, live := false }

theorem witness_opens : (st (dev .run)).opens 0 .a [0x02#8, 0xFD, 0xFF, 0xFF, 0xFF, 0xFF] .write 0xFFFFFFFF
    ∧ (st (dev .load)).opens 0 .b [0x0B#8, 0x3B, 0xFF, 0xFE] .read 0x3BFFFE ∧ (st (dev .run)).opens 0 .a (encodeHead false .read 0) .read 0
    ∧ (st (dev .run)).opens 0 .a (encodeHead false .readStatus 0) .readStatus 0
    ∧ (st (dev .off)).opens 0 .a (encodeHead true .readSfdp 0x100) .readSfdp 0x100
    ∧ (st (dev .run)).opens 0 .b (encodeHead false .resetEnable 0) .resetEnable 0
    ∧ (st (dev .run)).opens 0 .b (encodeHead false .resetPort 0) .resetPort 0 := by
  repeat' apply And.intro
  all_goals decide

theorem witness_writeTransaction :
    ((aft 0 (dev .run)).portServed .a = true ∧ (aft 0 (dev .fill)).pw.mode.timetabled = false)
    ∧ (st (dev .fill)).opens 0 .b (encodeHead true .write 0) .write 0
    ∧ (let w : WireWord := { lo := 0x80#8, hi := none, delta := 9 };
      (incoming 5 w).live = false ∧ w.whole = false ∧ (WireWord.of 1 false false 9).s0 = false ∧ (WireWord.of 1 false false 9).s1 = false)
    ∧ ((WireWord.of 1 true true 9).whole = true ∧ (WireWord.of 1 true true 9).s0 = true ∧ (WireWord.of 1 true true 9).s1 = true
      ∧ (incoming 0x1DFFFF (.of 1 true true 9)).addr < 0x1E0000 ∧ 0x1E0000 ≤ (incoming 0x1E0000 (.of 1 true true 9)).addr)
    ∧ ((WireWord.of 1 true false 9).s0 = !(WireWord.of 1 true false 9).s1 ∧ (WireWord.of 1 false true 9).s0 = !(WireWord.of 1 false true 9).s1)
    ∧ ((dev .hold).pw.mode ≠ .limp ∧ (dev .hold).pw.mode ≠ .store ∧ ((dev .hold).port .a).merge.length < 8
      ∧ ∀ e ∈ ((dev .hold).port .a).merge, e.addr ≠ (incoming 5 (.of 1 true false 9)).addr)
    ∧ (let d := holding .run fun x => { x with merge := [entry5 none] };
      (d.port .a).merge.find? (fun e => e.addr == 5) = some (entry5 none)
      ∧ (if (WireWord.of 1 false true 9).s0 then (entry5 none).lo = none ∧ (entry5 none).hi ≠ none
          else (entry5 none).hi = none ∧ (entry5 none).lo ≠ none)) := by
  refine ⟨?_, ⟨?_, ?_, ?_⟩, ?_⟩
  all_goals decide

theorem witness_portCommandsAndReset :
    ((aft 0 (dev .off)).pw.mode ≠ .replay ∧ ((aft 0 (dev .off)).port .a).vddio = true ∧ (aft 0 (dev .off)).portAlive .a = true
      ∧ ((aft 0 (dev .off)).port .a).resetEnabled = false ∧ decodeHead ((aft 0 (dev .off)).wireOneS .a) [0x03#8] = .unknown)
    ∧ (let d := aft 0 (holding .run fun x => { x with resetAt := 999000 }); (d.port .a).resetAt + 1000 ≤ d.now)
    ∧ (let d := aft 0 (holding .run fun x => { x with resetAt := 999001 }); d.now < (d.port .a).resetAt + 1000)
    ∧ ((aft 0 (holding .run fun x => { x with vddio := false })).port .a).vddio = false
    ∧ ((aft 0 (holding .run fun x => { x with resetEnabled := true })).port .a).resetEnabled = true
    ∧ ((dev .test).pw.mode.responder = false ∧ (dev .fill).pw.mode.responder = true)
    ∧ ({ dev .run with cm := { semL := List.replicate 64 { owner := some .portA } } }.semL 63).owner = some Port.a.party
    ∧ (5 < (dev .run).cm.chans.length ∧ chanSender 0 = .portA ∧ chanReceiver 1 = .portA ∧ chanSender 5 ≠ .portA
      ∧ chanReceiver 5 ≠ .portA) := by decide

theorem witness_readsAndStatus :
    (aft 0 (dev .run)).portServed .a = true ∧ (aft 0 (dev .load)).pw.mode.responder = true ∧ (aft 0 (dev .run)).pw.mode ≠ .replay
    ∧ 0x100 + 0 ≥ 0x100 ∧ ([0x53#8, 0x46#8, 0x44#8, 0x50#8] : List Byte)[0 + 3]? = some 0x50#8 := by decide

theorem witness_arrayWrites :
    Memory.wf (aft 1 (dev .run)).ar.mem = true
    ∧ (let d := aft 1 (holding .run fun x => { x with wq := [.merged 0x80000 0, .full 0x1DFFFF 3 999999, .full 5 3 999998] });
      (5#21).toNat < 0x1F0000 ∧ d.dueItem .a = some (.merged 0x80000 0) ∧ d.judge .a (5#21).toNat false = .accept)
    ∧ (let d := aft 1 (holding .run fun x => { x with wq := [.full 0x1DFFFF 3 999998] });
      d.dueItem .a = some (.full (0x1DFFFF#21).toNat 3 999998) ∧ d.judge .a (0x1DFFFF#21).toNat false = .accept)
    ∧ (let d := aft 1 (holding .run fun x => { x with wq := [.merged 5 9], merge := [entry5 (some 2)] });
      d.dueItem .a = some (.merged (5#21).toNat 9)
      ∧ (d.port .a).merge.find? (fun e => e.addr == (5#21).toNat && !e.lone) = some (entry5 (some 2))
      ∧ d.judge .a (5#21).toNat false = .accept)
    ∧ (let m : Rmw := { addr := 5, lo := some 1, hi := none, base := some 0, stage := false, since := 1000001 };
      let d := aft 1 (holding .run fun x => { x with rmw := [m] });
      (d.port .a).rmw.find? (fun m => d.rmwDue .a m) = some m ∧ m.addr = (5#21).toNat ∧ d.judge .a (5#21).toNat true = .accept)
    ∧ ((aft 1 (dev .run)).pilotRuns = true ∧ (0x1DFFFF#21).toNat < 0x1E0000 ∧ (aft 1 (dev .run)).writeHeld 0x1DFFFF = false) := by
  decide

/-- A hold of one page with a word that port A may not write, of each kind that refuses. -/
def fenced (h : Hold) : Dev := { holding .run (fun x => { x with wq := [.full 1023 3 9] }) with
  ar := { holds := [{ h with base := 0, pages := 1 }] } }

theorem witness_refusedWrites :
    ((aft 1 (fenced {})).dueItem .a = some (.full 1023 3 9) ∧ (aft 1 (fenced {})).judge .a 1023 false = .policy 0
      ∧ (aft 1 (fenced {})).judge .a 1023 false ≠ .accept)
    ∧ (aft 1 (fenced { writeA := true, policy := .tally })).judge .a 1023 false ≠ .accept
    ∧ (aft 1 (dev .run)).judge .a 0x1E0000 false = .reserve ∧ (aft 1 (dev .limp)).judge .a 0 false = .quiet
    ∧ (aft 1 { fenced { persistent := true, writeA := true } with pw := { mode := .store } }).judge .a 0 false = .store
    ∧ (let d := aft 1 { fenced { persistent := true, writeA := true, } with kl := { budget := 0 } };
      d.judge .a 1023 false = .budget)
    ∧ (∀ i ∈ ((aft 2 (fenced {})).port .a).wq, (aft 2 (fenced {})).mayUse (portCode .a) (bankOf i.addr) = false)
    ∧ (let d := aft 1 (holding .run fun x => { x with wq := [.full 0 3 999999] });
      d.mayUse 1 0 = true ∧ ∀ i ∈ (d.port .a).wq, d.now < i.arrived + 3) := by decide

/-- A word to be read. -/
def item (addr driveAt : Nat) : ReadItem := { addr := addr, first := true, driveAt := driveAt, delta := 0, last := true, cut := false }

theorem witness_checkedPortRead :
    let d := fun i : ReadItem => aft 1 (holding .run fun x => { x with rq := [i] });
    ((d (item 0x1DFFFF 1000065)).port .a).rq = item 0x1DFFFF 1000065 :: [] ∧ (d (item 0 0)).pw.mode ≠ .replay
    ∧ ((d (item 0 0)).port .a).wq = [] ∧ (d (item 0 0)).mayUse (portCode .a) (bankOf 0x1DFFFF) = true
    ∧ (d (item 0 0)).mayUse (portCode .b) (bankOf 0x1DFFFF) = false
    ∧ (d (item 0 0)).now + 64 ≤ (item 0x1DFFFF 1000065).driveAt ∧ (item 0 1000064).driveAt < (d (item 0 0)).now + 64
    ∧ (item 0x1DFFFF 0).addr < 0x1E0000 ∧ 0x1E0000 ≤ (item 0x1E0000 0).addr ∧ (item 0x1EFFFF 0).addr < 0x1F0000
    ∧ ((aft 1 (holding .run fun x => { x with rq := [item 0 0], wq := [.full 5 3 9] })).port .a).wq ≠ [] := by decide

theorem witness_mergeEntries :
    (let d := aft 0 (holding .run fun x => { x with merge := [entry5 none] });
      d.pw.mode.timetabled = true ∧ (d.port .a).merge = [entry5 none] ∧ (entry5 none).tick + 2 ≤ d.ck.tick
      ∧ (entry5 none).hi.isSome = false ∧ d.judge .a 5 true = .accept ∧ (aft 0 (dev .limp)).judge .a 5 true ≠ .accept)
    ∧ (let m : Rmw := { addr := 5, lo := some 1, hi := none, base := none, stage := false, since := 1000001 };
      let d := aft 1 (holding .run fun x => { x with rmw := [m] });
      d.pw.mode ≠ .replay ∧ (d.port .a).rmw.find? (fun m => d.rmwDue .a m) = some m ∧ m.base = none)
    ∧ (let m : Rmw := { addr := 5, lo := some 1, hi := none, base := none, stage := false, since := 1000002 };
      let d := aft 1 (holding .run fun x => { x with rmw := [m] });
      ∀ m ∈ (d.port .a).rmw, d.rmwDue .a m = false) := by decide

theorem witness_appendPointerWrite :
    let d := aft 0 { dev .run with ar := { holds := [{ base := 0, pages := 2, policy := .append }] } };
    d.pilotRuns = true ∧ (d.hold 0).policy = .append ∧ (2048#28).toNat ≤ 1024 * (d.hold 0).pages
    ∧ 1024 * (d.hold 0).pages < (2049#28).toNat ∧ (d.hold 15).policy ≠ .append := by decide

theorem witness_registerWrites :
    (st (dev .run)).acts 0 .portA ∧ (st (dev .run)).acts 0 .portB ∧ (st (dev .run)).acts 0 .pilot
    ∧ (0x1F0C02#21).toNat % 8 < 3 ∧ (0x1F14BF#21).toNat < 0x1F14C0 ∧ (0x1F1803#21).toNat < 0x1F1804
    ∧ (0x1F002F#21).toNat < 0x1F0030 ∧ 0x1F7000 ≤ (0x1F7000#21).toNat ∧ (1#14) ≠ 0#14
    ∧ (let d := aft 0 { dev .run with cf := { copySel := 2, run := harbourTt 6 } };
      d.cf.copySel = 2 ∧ d.cf.run = harbourTt 6 ∧ d.ck.lenReg = 100000 ∧ d.ck.slip = 0 ∧ (2048#14).toNat % 8192 = 2048) := by
  repeat' apply And.intro
  all_goals decide

theorem witness_snapshotReads : (st (dev .run)).acts 0 .pilot ∧ ((0x1F0002#21).toNat, 4) ∈ multiValues
    ∧ ((0x1F0C7B#21).toNat, 2) ∈ multiValues ∧ ((0x1F0900#21).toNat, 4) ∈ multiValues
    ∧ ∃ later : Dev, (later.party .portA).snaps = ((dev .run).party .portA).snaps := by
  refine ⟨⟨rfl, rfl⟩, by decide, by decide, by decide, dev .run, rfl⟩

/-- Every bank's scrubber in one state. -/
def scrubbing (b : ScrubBank) : Dev := { dev .run with ar := { banks := List.replicate 4 b, rate := 1 } }

theorem witness_scrubSlots :
    ((st (dev .run)).timed 6 ∧ (aft 5 (dev .run)).mayUse 6 0 = false)
    ∧ (let d := aft 6 (dev .run); Memory.wf d.ar.mem = true ∧ d.pw.mode ≠ .replay ∧ d.ar.rawOp = none ∧ 3 < d.ar.banks.length
      ∧ d.mayUse 6 3 = true)
    ∧ (let w : WriteBack := { addr := 7, data := 1, touched := false };
      let d := aft 6 (scrubbing { rwb := some w }); (d.scrubBank 0).rwb = some w ∧ d.bankDead 7 = false)
    ∧ (let w : WriteBack := { addr := 7, data := 1, touched := true };
      let d := aft 6 (scrubbing { wb := some w }); (d.scrubBank 0).rwb = none ∧ (d.scrubBank 0).repair = [] ∧ (d.scrubBank 0).wb = some w)
    ∧ (let d := aft 6 (scrubbing { repair := [7], wb := some { addr := 9, data := 1, touched := false } });
      (d.scrubBank 0).rwb = none ∧ (d.scrubBank 0).repair = 7 :: [] ∧ (d.checkAt 7).out = .clean)
    ∧ (let b : ScrubBank := { bptr := 471039 };
      let d := aft 6 { scrubbing b with ar := { (scrubbing b).ar with mem := [(sweepAddr 3 471039, encodeWord 5#14 ^^^ 1#20)] } };
      (d.scrubBank 3).rwb = none ∧ (d.scrubBank 3).repair = [] ∧ (d.scrubBank 3).wb = none
      ∧ (d.scrubBank 3).readsThisTick < d.ar.rate ∧ (d.scrubBank 3).bptr < sweepLen 3 ∧ sweepLen 3 ≤ (d.scrubBank 3).bptr + 1
      ∧ (d.checkAt (sweepAddr 3 471039)).out = .corrected)
    ∧ (let j : StripeJob := { bank := 1, base := 0x80000, phase := .read5, buf := [{ code := 0 }] };
      let d := aft 6 { scrubbing { readsThisTick := 1 } with ar := { (scrubbing { readsThisTick := 1 }).ar with stripe := some j } };
      d.ar.rate ≤ (d.scrubBank 1).readsThisTick ∧ d.ar.stripe = some j ∧ j.bank = (1 : Fin 4) ∧ j.idx < j.buf.length) := by
  refine ⟨⟨⟨rfl, rfl⟩, by decide⟩, by decide, by decide, by decide, by decide, ?_, by decide⟩
  decide

/-- SERVICE with the raw enable set and an operation waiting, or none. -/
def rawDev (en : Bool) (op : Option (RawOp × Nat × Code)) : Dev := { dev .service with ar := { rawEn := en, rawOp := op } }

theorem witness_eccAndRawOperations :
    (st (rawDev false none)).acts 0 .portA ∧ (aft 0 (rawDev false none)).ar.rawEn = false
    ∧ ((aft 0 (rawDev true none)).ar.rawEn = true ∧ (aft 0 (rawDev true none)).rawAllowed 0 = true
      ∧ (aft 0 (rawDev true none)).rawAllowed 0x1E0000 = false)
    ∧ (let d := aft 6 (rawDev true (some (.check, 0x1DFFFF, 9#20)));
      Memory.wf d.ar.mem = true ∧ d.mayUse 6 3 = true ∧ d.ar.rawOp = some (.check, 0x1DFFFF, 9#20)
      ∧ 0x1DFFFF / 524288 = ((3 : Fin 4) : Nat) ∧ d.inStripe 0x1DFFFF = false ∧ d.bankDead 0x1DFFFF = false)
    ∧ (st (rawDev true none)).timed 6 := by
  repeat' apply And.intro
  all_goals decide

/-! ### Semaphores, mailboxes, events -/

/-- Local semaphores 0 and 63 held by port A and by the pilot, with port B waiting. -/
def semDev : Dev := { dev .run with cm :=
  { semL := ((List.replicate 64 ({} : SemLocal)).set 0 { owner := some .portA, wantB := true }).set 63 { owner := some .pilot } } }

theorem witness_semLocalClaim : (st semDev).acts 0 .portA ∧ ((aft 0 semDev).semL 1).owner = none
    ∧ ((aft 0 semDev).semL 63).owner = some .pilot ∧ Party.pilot ≠ .portA ∧ ((aft 0 semDev).semL 0).owner = some .portA := by
  repeat' apply And.intro
  all_goals decide

theorem witness_semLocalRelease : (st semDev).acts 0 .pilot ∧ ((aft 0 semDev).semL 63).owner = some .pilot
    ∧ ((aft 0 semDev).semL 0).owner ≠ some .pilot := by
  repeat' apply And.intro
  all_goals decide

/-- A mailbox device: `n` words queued on channel 0, and a POST in channel 1 whose ACK timer ends at tick 101. -/
def mbxDev (n : Nat) : Dev := { dev .run with ck := { (dev .run).ck with tick := 101 }, cm := { chans :=
  [{ queue := [List.replicate n 0], free := 16 - n, confirm := true }, { timer := some 100, ackto := 1, acktoEff := 1 },
   { notify := 2 }, {}, { notify := 2 }, {}] } }

theorem witness_mailboxPostAndTake :
    (st (mbxDev 15)).acts 0 .portA ∧ Party.portA = chanSender 0
    ∧ ((1#14).toNat % 32 = 1 ∧ ((aft 0 (mbxDev 15)).chan 0).words + 1 ≤ 16)
    ∧ ((2#14).toNat % 32 ≤ 16 ∧ 16 < ((aft 0 (mbxDev 15)).chan 0).words + 2)
    ∧ ((16#14).toNat % 32 = 16 ∧ ((aft 0 (mbxDev 15)).chan 2).words + 16 ≤ 16)
    ∧ ((0x3FE0#14).toNat % 32 = 0 ∧ 16 < (17#14).toNat % 32)
    ∧ (st (mbxDev 15)).acts 0 .portB ∧ Party.portB = chanReceiver 0
    ∧ ((aft 0 (mbxDev 15)).chan 0).queue = List.replicate 15 0 :: [] ∧ ((aft 0 (mbxDev 15)).chan 5).queue = [] := by
  repeat' apply And.intro
  all_goals decide

theorem witness_mailboxCodesAndFlags :
    (st (mbxDev 1)).acts 8 .portA ∧ Party.portA = chanReceiver 1 ∧ (0x3FEF#14).toNat < 0x3FF0 ∧ 0x3FF0 ≤ (0x3FF0#14).toNat
    ∧ (st (mbxDev 1)).acts 8 .portB ∧ Party.portB = chanSender 1
    ∧ ((st (mbxDev 1)).timed 8 ∧ ((aft 8 (mbxDev 1)).chan 1).timer = some 100 ∧ ((aft 8 (mbxDev 1)).chan 1).acktoEff ≠ 0
      ∧ (aft 8 (mbxDev 1)).ck.tick = 100 + ((aft 8 (mbxDev 1)).chan 1).acktoEff ∧ (aft 8 (mbxDev 1)).mayUse 8 3 = true
      ∧ ∀ j : Fin 6, j < 1 → ((aft 8 (mbxDev 1)).chan j).expires (aft 8 (mbxDev 1)).ck.tick = false)
    ∧ (aft 9 (mbxDev 1)).mayUse 8 3 = false ∧ ((aft 8 (mbxDev 1)).chan 0).expires (aft 8 (mbxDev 1)).ck.tick = false
    ∧ (Party.pilot ≠ chanSender 0 ∧ Party.pilot ≠ chanReceiver 0 ∧ (st (mbxDev 1)).acts 8 .pilot)
    ∧ (Party.portB = chanReceiver 0 ∧ (2#14).toNat % 4 ≠ 3 ∧ (6#14).toNat.testBit 2 = ((aft 8 (mbxDev 1)).chan 0).confirm) := by
  repeat' apply And.intro
  all_goals decide

/-- Ring semaphores: 0 owned by port A here, 15 by port A at node 3. -/
def ringSems (node : Nat) : List SemRing :=
  ((List.replicate 16 {}).set 0 { node := node, party := some .portA }).set 15 { node := 3, party := some .portA }

/-- A node with these ring semaphores and a claim of 7 that port B made. -/
def rsemDev (node nodes : Nat) : Dev :=
  { ringDev .run node act act with
    cf := { (dev .run).cf with ringNodes := nodes },
    cm := { semR := ringSems node, claims := [{ sem := 7, party := .portB, tick := 98, slot := 640 }] } }

theorem witness_semRingRelease :
    (st (rsemDev 1 0)).acts 0 .portA ∧ (st (rsemDev 1 4)).acts 0 .portA
    ∧ ((aft 0 (rsemDev 1 0)).ringOwns .portA 0 = true ∧ (aft 0 (rsemDev 1 0)).cf.ringNodes = 0)
    ∧ (let d := aft 0 (rsemDev 1 4);
      d.ringOwns .portA 0 = true ∧ d.cf.ringNodes ≠ 0 ∧ d.isAnchor = false ∧ d.originates = true ∧ d.pathTo 0 = true)
    ∧ (aft 0 { rsemDev 1 4 with rg := { (rsemDev 1 4).rg with numbered := false } }).pathTo 0 = false
    ∧ (aft 0 { rsemDev 1 4 with pw := { mode := .test } }).originates = false
    ∧ (let d := aft 0 (rsemDev 0 4); d.ringOwns .portA 0 = true ∧ d.isAnchor = true ∧ 0 < d.cm.semR.length)
    ∧ (let d := aft 0 { rsemDev 0 4 with rg := { (rsemDev 0 4).rg with conflict := true } }; d.isAnchor = false ∧ d.originates = true)
    ∧ (aft 0 (rsemDev 1 4)).ringOwns .portA 15 = false := by
  repeat' apply And.intro
  all_goals decide

theorem witness_semRingClaim :
    (st (rsemDev 1 4)).acts 0 .portB ∧ ((aft 0 (rsemDev 1 4)).semR 15).party ≠ none ∧ (aft 0 (rsemDev 1 4)).claimOf 7 ≠ none
    ∧ (let d := aft 0 (rsemDev 1 0); (d.semR 14).party = none ∧ d.claimOf 14 = none ∧ d.cf.ringNodes = 0)
    ∧ ((aft 0 (rsemDev 1 4)).originates = true ∧ (aft 0 (rsemDev 1 4)).isAnchor = false)
    ∧ (let d := aft 0 { rsemDev 1 4 with rg := { (rsemDev 1 4).rg with numbered := false } };
      d.cf.ringNodes ≠ 0 ∧ d.isAnchor = false ∧ d.originates = false)
    ∧ ((aft 0 (rsemDev 0 4)).isAnchor = true ∧ 14 < (aft 0 (rsemDev 0 4)).cm.semR.length)
    ∧ (let c : RingClaim := { sem := 7, party := .portB, tick := 98, slot := 640 };
      (aft 0 (rsemDev 1 4)).claimOf 7 = some c ∧ c.tick + 2 = (aft 0 (rsemDev 1 4)).ck.tick ∧ c.slot ≤ (aft 0 (rsemDev 1 4)).ck.slot
      ∧ c.tick + 2 < 101)
    ∧ (let d := aft 0 { rsemDev 1 4 with ck := { (dev .run).ck with slot := 639 } };
      d.ck.tick = 98 + 2 ∧ d.ck.slot < 640 ∧ 99 < 98 + 2) ∧ (aft 0 (rsemDev 1 4)).claimOf 14 = none := by
  repeat' apply And.intro
  all_goals decide

/-- Sources that target port A: 0 pending, 54 active for port A and pending again, 5 active for port B. -/
def sources : List Source :=
  (((List.replicate 64 { targets := 1 }).set 0 { targets := 1, pend := true }).set 54
    { targets := 1, active := true, owner := some .portA, pend := true, mask := false }).set 5
      { targets := 1, active := true, owner := some .portB }

/-- A device with these sources. -/
def evDev : Dev := { dev .run with ev := { live := true, srcs := sources } }

theorem witness_eventClaims : let d := aft 0 evDev;
    (st evDev).acts 0 .portA ∧ ((d.src 0).targets.testBit 0 = true ∧ (d.src 0).pend = true ∧ (d.src 0).active = false)
    ∧ (d.src 0).targets.testBit 1 = false ∧ (d.src 63).pend = false ∧ (d.src 54).active = true
    ∧ ((54#14).toNat < 55 ∧ (d.src 54).active = true ∧ (d.src 54).owner = some .portA
      ∧ (d.src 54).pend = true ∧ (d.src 54).mask = false)
    ∧ (55 ≤ (55#14).toNat ∧ (d.src 5).owner ≠ some .portA) := by
  intro d
  repeat' apply And.intro
  all_goals decide

/-- A record of source 1 for port A, so far written, and a queue of `cnt` records. -/
def recDev (written cnt : Nat) : Dev :=
  let r : EvRecord := { source := 1, target := .portA, tick := 100, at' := 1000007, written := written };
  { dev .run with ev := { live := true, recs := [r], qA := { cnt := cnt, wr := cnt, free := 1024 - cnt } } }

theorem witness_eventPendingAndRecords :
    (st evDev).acts 0 .pilot ∧ (63 < (aft 0 evDev).ev.srcs.length ∧ 63 / 14 = ((4 : Fin 5) : Nat))
    ∧ ((st (recDev 0 1023)).timed 8 ∧ (aft 7 (recDev 0 0)).mayUse 8 3 = false ∧ (aft 8 (dev .run)).ev.recs = []
      ∧ ((aft 8 (mbxDev 1)).chan 1).expires (aft 8 (mbxDev 1)).ck.tick = true ∧ (aft 7 (recDev 0 0)).now ≤ 1000007)
    ∧ (let d := aft 8 (recDev 0 1023);
      Memory.wf d.ar.mem = true ∧ d.ev.recs.length = 1 ∧ d.mayUse 8 3 = true ∧ (∀ k : Fin 6, (d.chan k).expires d.ck.tick = false)
      ∧ (∀ r ∈ d.ev.recs, r.at' < d.now) ∧ (d.evq .portA).cnt < 1024 ∧ d.writeHeld (queueBase .portA + 4 * 1023 + 1) = false)
    ∧ 1024 ≤ ((aft 8 (recDev 0 1024)).evq .portA).cnt ∧ (aft 8 (recDev 3 5)).writeHeld (queueBase .portA + 20) = false
    ∧ (let q := (aft 0 (recDev 0 5)).evq .portA;
      (st (recDev 0 5)).acts 0 .portA ∧ ((5#14).toNat % 1024 + 1024 - q.rd) % 1024 ≤ q.cnt
      ∧ q.cnt < ((6#14).toNat % 1024 + 1024 - q.rd) % 1024 ∧ (0x2405#14).toNat % 1024 = 5) := by
  repeat' apply And.intro
  all_goals decide

/-! ### Pilot commands -/

theorem witness_commandEnds : let d := busy .run (cmd .accepted [0x0002, 0])
    d.cm.chans.length = 6 ∧ [1#14] ≠ [] ∧ (d.chan (returnChan .a)).words + (List.replicate 16 (0#14)).length ≤ 16 := by decide

/-- SERVICE or RUN with tally 0 declared for port A, at a value, and the command. -/
def tallyDev (m : Mode) (high : Nat) (c : Cmd) : Dev := { busy m c with ks := { tallies :=
  ({ declared := true, portA := true, high := high, low := 63 } : Tally) :: List.replicate 15 {} } }

/-- A node of the ring with a rope of one member and a sealed hold. -/
def teamDev (m : Mode) (c : Cmd) : Dev :=
  { tallyDev m 0 c with
    cf := { (dev m).cf with ringNodes := 4 },
    rg := (ringDev m 1 act act).rg,
    ar := { holds := [{ base := 0, pages := 2, sealed := true, rope := 1 }] } }

theorem witness_tallyCommands :
    (let c := cmd .accepted [0x0001, 0, 4031];
      let d := aft 0 (tallyDev .run (2 ^ 50 - 64) c);
      (st (tallyDev .run (2 ^ 50 - 64) c)).took 0 .a 0x0001 c ∧ (d.tally (c.word 1)).declared = true
      ∧ (d.tally (c.word 1)).broken = false ∧ (d.tally (c.word 1)).allows .a = true
      ∧ (d.tally (c.word 1)).value + 0 + c.word 2 < 2 ^ 56)
    ∧ (let d := aft 0 (tallyDev .run (2 ^ 50 - 1) (cmd .accepted [0x0001, 0, 1]));
      2 ^ 56 ≤ (d.tally 0).value + 0 + 1 ∧ (d.tally 15).declared = false)
    ∧ (st (tallyDev .run 0 (cmd .accepted [0x0002, 0]))).took 0 .a 0x0002 (cmd .accepted [0x0002, 0])
    ∧ (let c := cmd .accepted [0x0003, 0, 0, 0, 0, 0, 0x3FC9, 0x77];
      (st (tallyDev .run 0 c)).took 0 .a 0x0003 c ∧ (aft 0 (tallyDev .run 0 c)).destOk .a (c.value 6 2) 55 = true
      ∧ (aft 0 (tallyDev .run 0 c)).destOk .a (c.value 6 2 + 1) 55 = false)
    ∧ (let c := cmd .accepted [0x0004, 0];
      let d := aft 0 (teamDev .service c);
      (st (teamDev .service c)).took 0 .a 0x0004 c ∧ (d.tally (c.word 1)).declared = true
      ∧ d.team ≠ [] ∧ d.originates = true
      ∧ (aft 0 (tallyDev .service 0 c)).team = [] ∧ ((aft 0 (tallyDev .service 0 c)).tally 15).declared = false)
    ∧ (let r : Recover := { port := .a, tally := 0, tick := 84 };
      let d := aft 0 { tallyDev .service 0 (cmd .started [0x0004, 0]) with ks := { recover := [{ r with port := .b, tick := 80 }, r] } };
      d.pilotRuns = true ∧ d.ks.recover.find? (fun r => decide (r.port = .a) && decide (r.tick + 16 ≤ d.ck.tick)) = some r
      ∧ agreedValue d.sealedHold.rope (r.replicas.filter (d.replicaFits r.tally)) = none ∧ 99 < 84 + 16) := by
  repeat' apply And.intro
  all_goals decide

/-- The words of a tally replica that says a value, with no node and no signature. -/
def replicaOf (v : Nat) : List Word := [0x1A7E#14, 0, 0, 0, 0, 0] ++ toWords v 4 ++ List.replicate 82 0

/-- R377: a recovery whose one replica the model takes. -/
theorem witness_agreedValue : agreedValue 1 [{ node := 2, words := replicaOf 5 }] ≠ none := by decide

/-- A message queued on the channel from port A to the pilot, behind no other, posted in a slot. -/
def asking (m : Mode) (ws : List Nat) (posted : Nat := 1000000) : Dev := { dev m with cm := { chans :=
  [{}, {}, { notify := 2, queue := [ws.map fun w => BitVec.ofNat 14 w], posted := [posted] }, {}, { notify := 2 }, {}] } }

theorem witness_commandGateAndAcceptance :
    (let d := aft 0 (asking .run [0x0005]);
      (st (asking .run [0x0005])).timed 0 ∧ (d.chan (pilotChan .a)).queue = [0x0005#14] :: [] ∧ d.pl.locked = false ∧ d.cmd .a = none
      ∧ (d.chan (pilotChan .a)).refusedAt ≠ some d.now ∧ (d.chan (pilotChan .a)).nextAt = d.now ∧ cmdLength 0x0005 0 = none)
    ∧ (aft 8 (asking .run [0x0005] 0)).ownerAt 3 (aft 8 (asking .run [0x0005] 0)).ck.slot = 8
    ∧ (let d := aft 7 (asking .run [0x0005] 0);
      ¬ ((d.chan (pilotChan .a)).nextAt = d.now ∨ d.ownerAt 3 d.ck.slot = 8))
    ∧ (cmdLength 0x0002 0 = some 2 ∧ [0x0002#14].length ≠ 2)
    ∧ (cmdLength 0x0004 0 = some [0x0004#14, 0#14].length ∧ (dev .run).pw.mode ∉ cmdModes 0x0004)
    ∧ (aft 0 (asking .run [0x0002, 0])).gateCode .a [0x0002#14, 0#14] = 0
    ∧ (let d := aft 0 (busy .run (cmd .admitted [0x0002, 15]));
      d.pilotRuns = true ∧ d.cmd .a = some (cmd .admitted [0x0002, 15]) ∧ (cmd .admitted [0x0002, 15]).phase = .admitted
      ∧ (cmd .admitted [0x0002, 15]).argsOk = true ∧ (cmd .admitted [0x0002, 16]).argsOk = false) := by
  repeat' apply And.intro
  all_goals decide

/-- A device with one record, of sequence 9, in slot 0 of its sealed hold. -/
def recordDev (m : Mode) (c : Cmd) : Dev :=
  { busy m c with
    ks := { slots := 2, wRec := 1024, recs := [{ state := .local', seq := 9 }, {}] },
    ar := { holds := [{ base := 0, pages := 2, sealed := true }] } }

theorem witness_recordAndScrubCommands :
    (st (busy .run (cmd .accepted [0x0010]))).took 0 .a 0x0010 (cmd .accepted [0x0010])
    ∧ ((st (busy .hold (cmd .accepted [0x0010]))).took 0 .a 0x0010 (cmd .accepted [0x0010])
      ∧ (aft 0 (busy .hold (cmd .accepted [0x0010]))).pw.mode = .hold)
    ∧ (let c := cmd .accepted [0x0011, 9, 0, 0, 0, 4, 0];
      let d := aft 3 (recordDev .run c);
      (st (recordDev .run c)).took 3 .a 0x0011 c
      ∧ (d.listed (c.value 1 2)).head?.map (fun i => (d.slotRec i).seq) = some (c.value 1 2)
      ∧ (d.listed 8).head?.map (fun i => (d.slotRec i).seq) ≠ some 8)
    ∧ (st (busy .limp (cmd .accepted [0x0012, 0, 0, 0, 0]))).took 0 .a 0x0012 (cmd .accepted [0x0012, 0, 0, 0, 0])
    ∧ ((dev .run).destOk .a 0x1E0000 1 = false ∧ (dev .run).destOk .a 0x1DFFFF 1 = true ∧ 1 < [0#14, 0#14].length
      ∧ [0#14].length ≤ 1 ∧ Memory.wf (dev .run).ar.mem = true ∧ ∀ i, i < 1 → (dev .run).writeHeld (0x1DFFFF + i) = false)
    ∧ (let c := cmd .accepted [0x0020, 2011];
      let d := aft 0 (busy .run c);
      (st (busy .run c)).took 0 .a 0x0020 c ∧ (c.word 1 < 1984 ∨ (2000 ≤ c.word 1 ∧ c.word 1 < 2012)) ∧ c.word 1 / 512 ∉ d.ar.bankRet
      ∧ d.ar.spares.getD (c.word 1 / 512) 0 ≠ 0 ∧ d.ar.retire = none
      ∧ ¬ (2012 < 1984 ∨ (2000 ≤ 2012 ∧ 2012 < 2012)) ∧ ({ d.ar with spares := [8, 8, 8, 0] }.spares.getD (2011 / 512) 0 = 0)
      ∧ { d.ar with retire := some { port := .b, page := 0, spare := 0 } }.retire ≠ none)
    ∧ (let c := cmd .accepted [0x0021, 2];
      let d := aft 0 (busy .service c);
      (st (busy .service c)).took 0 .a 0x0021 c ∧ c.word 1 ≤ 2 ∧ c.word 1 ∉ d.ar.bankRet
      ∧ c.word 1 ∉ d.ar.bankRetPending ∧ d.ar.retire = none ∧ 2 < (cmd .accepted [0x0021, 3]).word 1)
    ∧ (let c := cmd .accepted [0x0022, 0, 0, 0x3FFF, 0x7B];
      (st (busy .run c)).took 0 .a 0x0022 c ∧ rangeAddr (c.value 1 2) = true ∧ rangeAddr (c.value 3 2) = true
      ∧ c.value 1 2 ≤ c.value 3 2 ∧ (aft 0 (busy .run c)).ar.ranges.length < 2 ∧ rangeAddr 0x1F0000 = false) := by
  repeat' apply And.intro
  all_goals decide

/-- A device whose port A has an update open, at an offset. -/
def updDev (sent : Nat) (c : Cmd) : Dev :=
  { busy .run c with cf := { (dev .run).cf with sfdpOk := true, updState := 1, updSent := sent } }

theorem witness_configUpdate :
    (let c := cmd .accepted [0x0030];
      (st (busy .run c)).took 0 .a 0x0030 c ∧ (aft 0 (busy .run c)).cf.sfdpOk = false)
    ∧ (let c := cmd .accepted [0x0030];
      let d := { busy .run c with cf := { copySel := 1, sfdpOk := true, seq := 0xFFFFFFFE } };
      (st d).took 0 .a 0x0030 c ∧ (aft 0 d).cf.copySel ≠ 2 ∧ (aft 0 d).cf.seq = 0xFFFFFFFE)
    ∧ (let c := cmd .accepted [0x0030];
      let d := { busy .limp c with cf := { copySel := 2, sfdpOk := true, seq := 0xFFFFFFFE, updState := 1, updOwner := .b } };
      (st d).took 0 .a 0x0030 c ∧ (aft 0 d).cf.copySel = 2 ∧ (aft 0 d).updateOpen .b = true ∧ (aft 0 (updDev 0 c)).updateOpen .b = false)
    ∧ (let d := aft 0 { updDev 0 (cmd .started [0x0030]) with cf := { updState := 1, updErasing := true } };
      d.cf.updErasing = true ∧ d.cf.updState = 1)
    ∧ (let c := cmd .accepted [0x0031, 0x3FEB, 0x1F, 21];
      (st (updDev 524267 c)).took 0 .a 0x0031 c ∧ (aft 0 (updDev 524267 c)).updateOpen .a = true
      ∧ c.value 1 2 % 524288 = 524267 ∧ 1 ≤ c.word 3 ∧ c.word 3 ≤ 21 ∧ c.value 1 2 % 524288 + c.word 3 ≤ 524288
      ∧ (aft 0 (busy .run c)).updateOpen .a = false)
    ∧ (let c := cmd .accepted [0x0031, 0x3FEC, 0x1F, 21];
      c.value 1 2 % 524288 = 524268 ∧ 524288 < c.value 1 2 % 524288 + c.word 3 ∧ c.value 1 2 % 524288 ≠ 0
      ∧ 21 < (cmd .accepted [0x0031, 0, 0, 22]).word 3)
    ∧ (let c := cmd .accepted [0x0032];
      (st (updDev 524288 c)).took 0 .a 0x0032 c ∧ (aft 0 (updDev 524288 c)).updateOpen .a = true)
    ∧ (let d := aft 0 { updDev 0 (cmd .started [0x0032]) with cf := { updState := 1, updCommitting := true } };
      d.cf.updCommitting = true ∧ d.cf.updState = 1 ∧ (aft 0 (dev .run)).cf.updCommitting = false) := by
  repeat' apply And.intro
  all_goals decide

/-- A node of the ring whose port A sends to a node. -/
def peerDev (c : Cmd) : Dev := { ringDev .run 1 act act with pl := { cmdA := some c } }

theorem witness_peerCommands :
    (let c := cmd .accepted [0x0040, 3, 1, 9];
      let d := aft 0 (peerDev c);
      (st (peerDev c)).took 0 .a 0x0040 c ∧ d.cf.ringNodes ≠ 0 ∧ d.rg.numbered = true ∧ c.word 1 % 1024 ≠ d.rg.nodeId
      ∧ d.inRing 3 = true ∧ d.pathTo 3 = true)
    ∧ (let c := cmd .accepted [0x0040, 4, 1, 9];
      (st (peerDev c)).took 0 .a 0x0040 c ∧ (aft 0 (peerDev c)).inRing 4 = false ∧ (dev .run).cf.ringNodes = 0)
    ∧ (let c := cmd .accepted [0x0040, 3, 1, 9];
      let d := aft 0 { peerDev c with rg := { (peerDev c).rg with breaks := [1, 3] } };
      d.rg.numbered = true ∧ d.cf.ringNodes ≠ 0 ∧ d.inRing 3 = true ∧ d.pathTo 3 = false)
    ∧ (let d := aft 0 { peerDev (cmd .started [0x0040, 3, 1, 9]) with rg := { peers := [(.a, 3, 84)] } };
      d.pilotRuns = true ∧ d.rg.peers.find? (fun x => decide (x.1 = .a) && decide (x.2.2 + 16 ≤ d.ck.tick)) = some (.a, 3, 84)
      ∧ 99 < 84 + 16)
    ∧ (let d := aft 0 { dev .run with pl := { inbox := [{ port := .a, src := 3, words := List.replicate 13 0 }] } };
      d.pl.inbox.find? (fun m => m.port == .a) = some { port := .a, src := 3, words := List.replicate 13 0 }
      ∧ 3 + 13 ≤ d.returnFree .a ∧ { d with cm := { chans := [{}, {}, {}, { reserved := 1 }] } }.returnFree .a < 3 + 13
      ∧ d.pl.inbox.find? (fun m => m.port == .b) = none) := by
  repeat' apply And.intro
  all_goals decide

/-- A device with a service nonce. -/
def nonceDev (c : Cmd) : Dev := { busy .run c with pl := { cmdA := some c, nonce := some 7 } }

theorem witness_sleepAndService :
    (st (busy .run (cmd .accepted [0x0050]))).took 0 .a 0x0050 (cmd .accepted [0x0050])
    ∧ (st (busy .hold (cmd .accepted [0x0050]))).took 0 .a 0x0050 (cmd .accepted [0x0050])
    ∧ (let c := cmd .accepted [0x0060, 0, 0, 0];
      let d := aft 0 (busy .run c);
      (st (busy .run c)).took 0 .a 0x0060 c ∧ c.word 1 = 0 ∧ d.lb.replay = none
      ∧ d.cm.chans.length = 6 ∧ (d.chan (returnChan .a)).words + 5 ≤ 16)
    ∧ (let c := cmd .accepted [0x0060, 1, 0x3FAD, 0x77];
      (st (busy .run c)).took 0 .a 0x0060 c ∧ c.word 1 = 1 ∧ (aft 0 (busy .run c)).pl.nonce = none
      ∧ (aft 0 (nonceDev c)).pl.nonce = some 7 ∧ c.value 2 2 + 83 = 0x1E0000
      ∧ 0x1E0000 < (cmd .accepted [0x0060, 1, 0x3FAE, 0x77]).value 2 2 + 83)
    ∧ (let c := cmd .accepted [0x0060, 1, 0, 0];
      (st (nonceDev c)).took 0 .a 0x0060 c
      ∧ ∀ r ∈ ({ aft 0 (nonceDev c) with pl := { (nonceDev c).pl with nonce := none } }.readRun 9 (c.value 2 2) 83).2,
        r.out ≠ .uncorrectable)
    ∧ (let c := cmd .accepted [0x0060, 1, 0, 0];
      let d := { nonceDev c with ar := { mem := [(82, 3#20)] } };
      ∃ r ∈ ({ aft 0 d with pl := { d.pl with nonce := none } }.readRun 9 (c.value 2 2) 83).2, r.out = .uncorrectable)
    ∧ (st (busy .service (cmd .accepted [0x0061]))).took 0 .a 0x0061 (cmd .accepted [0x0061]) := by
  repeat' apply And.intro
  all_goals decide +kernel

/-- SERVICE with the header of an export copy at address 0, for a REPLAY_START. -/
def copyDev (c : Cmd) : Dev := { busy .service c with ar :=
  { mem := [(0, encodeWord 0x1B0C#14), (1, encodeWord 1#14), (16, encodeWord 1#14)] } }

theorem witness_logbookCommands :
    (st (busy .run (cmd .accepted [0x0070]))).took 0 .a 0x0070 (cmd .accepted [0x0070])
    ∧ (let c := cmd .accepted [0x0071, 0, 0, 0, 16, 0];
      (st (busy .run c)).took 0 .a 0x0071 c ∧ c.copy = [] ∧ { c with copy := [1#14] }.copy ≠ [])
    ∧ (let c := cmd .accepted [0x0072, 0, 0, 17, 0];
      let words := ((aft 0 (copyDev c)).readRun 9 (c.value 1 2) 17).2.map Decoded.data;
      (st (copyDev c)).took 0 .a 0x0072 c ∧ c.value 1 2 + c.value 3 2 ≤ 0x1E0000 ∧ 17 ≤ c.value 3 2
      ∧ words.getD 0 0#14 = 0x1B0C#14 ∧ (words.getD 1 0#14).toNat % 16 = 1
      ∧ [words.getD 10 0#14, words.getD 11 0#14, words.getD 12 0#14] = toWords (aft 0 (copyDev c)).cf.crc 3
      ∧ (words.getD 16 0#14).toNat % 16 = 1)
    ∧ ((cmd .accepted [0x0072, 0, 0, 16, 0]).value 3 2 < 17
      ∧ 0x1E0000 < (cmd .accepted [0x0072, 0, 0, 1, 0x78]).value 1 2 + (cmd .accepted [0x0072, 0, 0, 1, 0x78]).value 3 2)
    ∧ (let d := aft 99359 { dev .service with lb := { rState := 1, replay := some {} } };
      d.pw.mode = .service ∧ d.lb.rState = 1 ∧ d.lb.replay ≠ none ∧ d.lb.replayDue = false ∧ d.pilotRuns = true
      ∧ d.ck.slot + 1 = d.ck.curLen)
    ∧ (let d := aft 10 { dev .run with lb := { queue := [3] } }; d.mayUse 10 3 = true ∧ d.lb.queue = 3 :: [])
    ∧ (aft 9 (dev .run)).mayUse 10 3 = false ∧ (aft 9 (dev .run)).lb.queue = [] := by
  repeat' apply And.intro
  all_goals decide

theorem witness_playedInputs : let r : LogRec := { kind := 5, slot := 650, words := [0x110#14] };
    let s := { dev .replay with lb := { replay := some { entry := [r] } } };
    (aft 10 s).pw.mode = .replay ∧ (aft 10 s).lb.replay = some { entry := r :: [] } ∧ r.kind = 5
    ∧ (aft 9 s).ck.slot < r.slot ∧ r.slot ≤ (aft 10 s).ck.slot
    ∧ (r.words.getD 0 0#14).toNat / 16 % 16 = 1 ∧ (r.words.getD 0 0#14).toNat / 256 % 64 ≠ 0
    ∧ (0x010#14).toNat / 256 % 64 = 0 ∧ (0x100#14).toNat / 16 % 16 = 0
    ∧ (aft 0 (dev .run)).pw.mode ≠ .replay ∧ ({} : Replay).entry = [] := by decide

theorem witness_pilotFaults :
    (let d := aft 0 (dev .run);
      d.pilotRuns = true ∧ Memory.wf d.ar.mem = true ∧ 0x1EC006 ≤ (0x1EC006#28).toNat
      ∧ (0x1F0000#28).toNat ≤ 0x1F0000 ∧ (∀ i, i < 6 → d.writeHeld (0x1EC006 - 6 + i) = false)
      ∧ ∀ i, i < 6 → d.writeHeld (0x1F0000 - 6 + i) = false)
    ∧ ((0x1EC005#28).toNat < 0x1EC006 ∧ 0x1F0000 < (0x1F0001#28).toNat)
    ∧ (let m := { cmd .admitted [0x0002, 0] with nextAt := 995904 };
      (aft 0 (busy .run m)).cmd .a = some m ∧ m.phase = .admitted ∧ m.nextAt + 4096 ≤ (aft 0 (busy .run m)).now)
    ∧ (let m := { cmd .started [0x0010] with acceptAt := 999872 };
      let d := aft 0 (busy .run m);
      d.cmd .a = some m ∧ m.phase ≠ .admitted ∧ m.op ≠ 0x0001 ∧ d.windowSlots m = some 128 ∧ m.acceptAt + 128 ≤ d.now)
    ∧ (let m := { cmd .started [0x0001, 0, 1] with acceptTick := 99 };
      let d := aft 99359 (busy .run m);
      d.cmd .a = some m ∧ m.op = 0x0001 ∧ m.acceptTick + 1 + m.grace = d.ck.tick ∧ d.ck.curLen ≤ d.ck.slot + 1
      ∧ (aft 99358 (busy .run m)).ck.slot + 1 < d.ck.curLen ∧ { m with acceptTick := 98 }.acceptTick + 1 + m.grace < d.ck.tick)
    ∧ ((aft 0 { dev .run with pl := { locked := true } }).pilotRuns = false ∧ (aft 0 (dev .run)).cmd .a = none) := by
  repeat' apply And.intro
  all_goals decide

/-! ### The keel store, the packer, records -/

/-- A page buffer of page 3. -/
def buf (read : Nat) : PageBuf := { page := 3, logical := 0, read := read }

/-- A device with a keel store. -/
def keelDev (k : Keel) : Dev := { dev .run with kl := k }

theorem witness_pageStoreReads :
    (let d := aft 7 (keelDev { reading := some (buf 1022) });
      d.keelKeeps = true ∧ d.pw.mode.timetabled = true ∧ d.pw.mode ≠ .replay ∧ d.beginRead.kl.reading = some (buf 1022)
      ∧ (buf 1022).read < 1023 ∧ (buf 1023).read = 1023
      ∧ (d.beginRead.readsTallies && d.beginRead.taskNow .tally) = false ∧ d.beginRead.mayUse 7 (3 / 512) = true)
    ∧ (let d := aft 6 (keelDev { reading := some (buf 0) });
      d.pw.retainEntry = false ∧ d.beginRead.kl.reading = some (buf 0) ∧ d.beginRead.mayUse 7 (3 / 512) = false)
    ∧ (let d := aft 6 { asleep true with kl := { reading := some (buf 0) } };
      d.keelKeeps = true ∧ d.pw.retainEntry = true ∧ d.ar.lastUse.getD (3 / 512) none ≠ some d.now ∧ d.beginRead.kl.reading = some (buf 0))
    ∧ (let d := aft 7 (keelDev { pages := [{ page := 3, state := .dirty, since := 0 }], buffers := List.replicate 3 (buf 1024) });
      d.kl.reading = none ∧ d.inFlight < 4 ∧ d.kl.stuck = false ∧ d.nextToRead = some 3)
    ∧ (aft 7 (keelDev {})).beginRead.kl.reading = none ∧ (aft 7 (keelDev { noMap := true })).keelKeeps = false
    ∧ ((aft 7 (dev .load)).pw.mode.timetabled = false ∧ (aft 7 (dev .load)).pw.retainEntry = false) := by
  repeat' apply And.intro
  all_goals decide

/-- A trickle entry that covers the slots from 600 on. -/
def trickle : Window := { owner := 7, banks := 1, endAnchored := false, task := .trickle, first := 600, last := 99000 }

theorem witness_storeAndMapCommits :
    (let g : Program := { buf := buf 1024, phys := 5, done := 15000, since := 999991 };
      let d := fun dt => aft dt (entries [trickle] (keelDev { prog := some g, pages := [{ page := 3, state := .storing, since := 0 }] }));
      (d 990).kl.prog = some g ∧ g.buf.read = 1024 ∧ (d 990).pw.mode ≠ .replay ∧ (d 990).lb.spent = false
      ∧ 16000 ≤ (d 990).programmed g ((d 990).now + 1) ∧ (d 989).programmed g ((d 989).now + 1) < 16000
      ∧ (d 990).kl.commit = none)
    ∧ (aft 990 (keelDev {})).kl.prog = none
    ∧ (let c : MapCommit := { covers := [{ logical := 0, phys := 5, page := 3 }], startAt := 872001, startTick := 99, copy := {}, final := false };
      let d := aft 0 (keelDev { commit := some c, uncovered := c.covers });
      d.kl.commit = some c ∧ c.final = false ∧ d.lb.spent = false ∧ c.startAt + 128000 ≤ d.now + 1 ∧ d.kl.seqStart = none
      ∧ d.storing = false ∧ d.ar.retire = none ∧ d.kl.uncovered = c.covers ∧ (d.validMap.map fun x => x.1).getD 1 = 0
      ∧ d.now + 1 < { c with startAt := 872002 }.startAt + 128000
      ∧ ((aft 0 (keelDev { map0 := none, map1 := some {} })).validMap.map fun x => x.1).getD 1 ≠ 0) := by
  repeat' apply And.intro
  all_goals decide

/-- A device that packs two channels in an entry of a task, of which 1 has what is said. -/
def pkDev (t : Task) (k : Packer) (c : PkrChan) : Dev :=
  entries [{ owner := 3, banks := 15, endAnchored := false, task := t, first := 600, last := 700 }]
    { dev .run with pk := { k with nCh := 2, chans := {} :: { c with desc := 32 } :: List.replicate 14 {} } }

theorem witness_packerChannels :
    (let d := aft 3 (pkDev .intake {} { fresh := true });
      1 < d.pk.chans.length ∧ d.pw.mode.packs = true ∧ d.taskNow .intake = true ∧ d.mayUse 3 (bankOf (d.pk.intake + 1)) = true
      ∧ d.pw.mode ≠ .replay ∧ d.chanOn 1 = true ∧ (d.pkr 1).read = false ∧ (∀ b, b < 1 → d.chanOn b = true → (d.pkr b).read = true)
      ∧ (d.pkr 1).fresh = true ∧ (d.checkAt (d.pk.intake + 1)).out ≠ .uncorrectable)
    ∧ (let d := aft 3 { pkDev .intake {} { fresh := true } with ar := { mem := [(1, 3#20)] } };
      (d.checkAt (d.pk.intake + 1)).out = .uncorrectable)
    ∧ ((aft 3 (pkDev .intake {} {})).pkr 1).fresh = false ∧ (aft 61 (pkDev .intake {} {})).taskNow .intake = false
    ∧ (aft 60 (pkDev .intake {} {})).taskNow .intake = true ∧ (aft 3 (pkDev .intake {} {})).chanOn 0 = false
    ∧ (aft 3 (dev .store)).pw.mode.packs = false ∧ ((aft 3 (pkDev .intake {} { read := true })).pkr 1).read = true
    ∧ (aft 3 (pkDev .coding {} {})).codeWork 1 = false
    ∧ (let d := aft 3 (pkDev .coding {} { sample := some none });
      1 < d.pk.nCh ∧ d.taskNow .coding = true ∧ d.codeWork 1 = true ∧ (∀ b, b < 1 → d.codeWork b = false) ∧ d.pk.hist = none)
    ∧ (let d := aft 3 (pkDev .coding { hist := some (68, 0) } { sample := some (some 1), discard := true });
      d.pk.hist = some (68, 0) ∧ d.mayUse 3 (bankOf (d.chanBase 0 1)) = true ∧ d.codeWork 1 = true ∧ (∀ b, b < 1 → d.codeWork b = false)
      ∧ d.pk.frz = none ∧ (d.pkr 1).truncDue = none ∧ (d.pkr 1).read = false ∧ (d.pkr 1).sample = some (some 1)
      ∧ 1 ≤ d.ck.tick ∧ 68 < d.ck.tick ∧ (d.ck.tick - 1 - 68) % 32 = 31 ∧ (d.pkr 1).discard = true)
    ∧ (let d := aft 3 (pkDev .coding { hist := some (69, 0) } { sample := some (some 1) });
      (d.ck.tick - 1 - 69) % 32 = 30 ∧ Memory.wf d.ar.mem = true ∧ d.writeHeld (d.freezeArea 0 1 + 1 + 30) = false)
    ∧ ((st (pkDev .coding {} {})).acts 0 .pilot ∧ (aft 0 (pkDev .coding {} {})).mayArm .pilot = true
      ∧ (st (pkDev .coding {} {})).acts 0 .portA ∧ (aft 0 (pkDev .coding {} {})).mayArm .portA = false) := by
  repeat' apply And.intro
  all_goals decide

theorem witness_packerBlocks :
    (1 ≤ (List.replicate 32 (none : Option Word)).length ∧ (List.replicate 32 (none : Option Word)).length ≤ 32)
    ∧ ((List.replicate 31 (some 0#14)).length ≤ 31 ∧ descMode 32 ≠ 3) ∧ (32 ≤ 32 ∧ (List.replicate 31 (some 0#14)).length < 32)
    ∧ 16383 ≤ 16383 := by decide

/-- A device in a tally update entry with an increment of 1 of tally 15 that port A's command made. -/
def updTally (tick : Nat) (low : Nat) : Dev :=
  entries [{ owner := 9, banks := 1, endAnchored := false, task := .tally, first := 600, last := 700 }]
    { busy .run { cmd .started [0x0001, 15, 1] with acceptTick := tick } with
      ks := { tallies := List.replicate 15 {} ++ [{ declared := true, low := low, incs := [(.a, 1)] }] } }

theorem witness_tallyUpdates :
    (let d := aft 60 (updTally 99 62);
      15 < d.ks.tallies.length ∧ d.pilotRuns = true ∧ d.taskNow .tally = true
      ∧ ((d.tally 15).incs.filter fun i => decide (d.acceptTick i.1 < d.ck.tick)) = [(.a, 1)] ∧ (d.tally 15).low + 1 ≤ 63
      ∧ Memory.wf d.ar.mem = true ∧ ∀ i, i < 32 → d.writeHeld (d.tallyBase 15 + 32 * b2n (!(d.tally 15).copy1) + i) = false)
    ∧ 63 < ((aft 60 (updTally 99 63)).tally 15).low + 1 ∧ (aft 61 (updTally 99 0)).taskNow .tally = false
    ∧ (let d := aft 60 (updTally 100 0); ((d.tally 15).incs.filter fun i => decide (d.acceptTick i.1 < d.ck.tick)) = [])
    ∧ (aft 60 { updTally 99 0 with pl := { locked := true } }).pilotRuns = false := by
  repeat' apply And.intro
  all_goals decide

/-- A device with two record slots and the seal engine's work, one slice short of a signature and of a verification. -/
def sealDev (a : Option SealJob) (q : List Nat) (r : Option Repair) : Dev :=
  entries [{ owner := 4, banks := 1, endAnchored := false, task := .signature, first := 600, last := 700 }]
    { dev .run with ks := { slots := 2, wRec := 1024, recs := [{ state := .sealing, seq := 9 }, { state := .roped, seq := 8 }], queue := q,
                            active := a, repair := r, sigDone := 2879989, auditDone := 4319989, sigSince := 1000000 } }

theorem witness_sealEngine :
    (let d := aft 10 (sealDev (some (.record 0)) [1] none);
      d.pw.mode.timetabled = true ∧ d.pw.mode ≠ .store ∧ d.pl.locked = false ∧ 2880000 ≤ d.ks.sigDone + d.sliceSlots (d.now + 1)
      ∧ d.ks.active = some (.record 0) ∧ 0 < d.ks.recs.length ∧ 0 ∉ d.ks.queue ∧ d.ks.attests = []
      ∧ d.ks.queue = 1 :: [] ∧ 1 < d.ks.recs.length)
    ∧ (let d := aft 9 (sealDev (some (.record 0)) [1] none); d.ks.sigDone + d.sliceSlots (d.now + 1) < 2880000)
    ∧ (let d := aft 10 (sealDev (some (.record 0)) [] none);
      d.ks.queue = [] ∧ Memory.wf d.ar.mem = true ∧ d.writeHeld (d.trailerBase 0 + 56) = false)
    ∧ (let d := aft 10 (sealDev (some (.attest .a [] 5)) [] none);
      d.ks.active = some (.attest .a [] 5) ∧ ∀ i, i < 37 → d.writeHeld (5 + 18 + i) = false)
    ∧ (let d := aft 10 (sealDev (some (.replica 15 [])) [] none);
      d.ks.active = some (.replica 15 []) ∧ 15 < d.ks.tallies.length)
    ∧ (let d := aft 10 (sealDev none [] none);
      d.ks.active = none ∧ 4320000 ≤ d.ks.auditDone + d.sliceSlots (d.now + 1) ∧ d.auditFrom d.ks.audit = some 1
      ∧ (d.slotRec 1).state ≠ .mismatch ∧ d.pw.mode ≠ .replay ∧ 1 < d.ks.recs.length)
    ∧ (let d := aft 9 (sealDev none [] none); d.ks.auditDone + d.sliceSlots (d.now + 1) < 4320000)
    ∧ (let d := aft 10 { sealDev none [] none with ar := { mem := [(1024, 3#20)] } };
      d.slotBase 1 ≤ 1024 ∧ 1024 < d.slotBase 1 + (d.ks.wRec - 64) ∧ (d.checkAt 1024).out = .uncorrectable)
    ∧ (let d := aft 10 (sealDev none [] none); d.trailerBase 1 ≤ 2047 ∧ 2047 < d.trailerBase 1 + 64)
    ∧ (let r : Repair := { slot := 1, member := 0, tick := 36 };
      let d := aft 0 (sealDev none [] (some r)); d.ks.repair = some r ∧ r.tick + 64 ≤ d.ck.tick ∧ 99 < r.tick + 64)
    ∧ (aft 0 (dev .run)).auditFrom (aft 0 (dev .run)).ks.audit = none ∧ (aft 0 (dev .run)).ks.repair = none := by
  repeat' apply And.intro
  all_goals decide

/-! ### The tick and the harness -/

theorem witness_tickBoundaries : let d := aft 0 (dev .run);
    (d.ck.running = true ∧ d.toBoundary.ck.running = true ∧ d.toBoundary.pw.mode.timetabled = true
      ∧ d.toBoundary.pw.mode ≠ .replay ∧ d.toBoundary.lb.replayDue = false)
    ∧ (aft 0 (asleep false)).ck.running = false := by decide

/-- A device at a check point. -/
def checkDev (m : Mode) (pfail : Bool) (l : Pilot) : Dev :=
  { dev m with pw := { mode := m, pfailPin := pfail, onPin := true }, pl := l }

theorem witness_checkPoints :
    ((aft 0 (dev .off)).pw.mode.timetabled = false ∧ (aft 63 (dev .run)).ck.slot % 64 ≠ 0
      ∧ (aft 64 (dev .run)).ck.slot % 64 = 0 ∧ (aft 64 (dev .run)).ck.lastCheck ≠ some (aft 64 (dev .run)).now
      ∧ (aft 0 { dev .run with ck := { (dev .run).ck with lastCheck := some 1000000 } }).ck.lastCheck = some (aft 0 (dev .run)).now)
    ∧ (let d := aft 0 (checkDev .run true {}); d.pfail = true ∧ d.ck.active = .run ∧ d.keelSilent = false)
    ∧ (let d := aft 0 (checkDev .run false { freezeReq := [.a] });
      d.pfail = false ∧ d.pw.mode = .run ∧ d.pl.limpDue = none ∧ d.pl.freezeReq ≠ [])
    ∧ (let d := aft 0 (checkDev .run false { sleepReq := [.b] });
      d.pfail = false ∧ d.pl.freezeReq = [] ∧ d.hn.trigger = none ∧ d.pl.leaveReq = [] ∧ d.pl.svcReq = [] ∧ d.pl.sleepReq ≠ []) := by
  repeat' apply And.intro
  all_goals decide

/-- A device whose timetable has a tally entry of slots 600 to 700, an end-anchored trickle entry, an intake and a coding entry. -/
def entryDev (opened : List Nat) (incs : List (Port × Nat)) : Dev :=
  entries [{ owner := 9, banks := 1, endAnchored := false, task := .tally, first := 600, last := 700 },
    { owner := 7, banks := 2, endAnchored := true, task := .trickle, first := 99400, last := 0 },
    { owner := 3, banks := 1, endAnchored := false, task := .intake, first := 600, last := 700 },
    { owner := 3, banks := 1, endAnchored := false, task := .coding, first := 600, last := 700 }]
  { busy .run { cmd .started [0x0001, 0, 1] with acceptTick := 99 } with
    ck := { (dev .run).ck with openEntries := opened },
    ks := { tallies := { declared := true, incs := incs } :: List.replicate 15 {} },
    pk := { nCh := 1, hist := some (68, 0), chans := { desc := 32, sample := some none } :: List.replicate 15 {} } }

theorem witness_tickReferenceAndEntries :
    (let k := { (dev .run).ck with source := 1, running := true };
      (aft 5 { dev .run with ck := k }).pw.mode ≠ .replay ∧ (aft 5 { dev .run with ck := k }).ck.source = 1
      ∧ (aft 5 { dev .run with ck := k }).ck.running = true ∧ (aft 5 (dev .replay)).pw.mode = .replay)
    ∧ (let k := { (dev .run).ck with source := 2, missed := 8 };
      k.source ≠ 0 ∧ k.holdover = false ∧ k.refLoss ≤ k.missed ∧ { k with missed := 7 }.missed < k.refLoss ∧ (aft 0 (dev .run)).ck.source = 0)
    ∧ ((aft 0 { dev .run with ck := { (dev .run).ck with tickOut := true } }).ck.tickOut = true ∧ (aft 0 (dev .run)).ck.tickOut = false)
    ∧ ((aft 0 (entryDev [] [])).entry 4 = none ∧ ((aft 0 (entryDev [] [])).entry 0).map Window.task = some .tally
      ∧ ((aft 0 (entryDev [] [])).entry 1).map Window.task = some .trickle
      ∧ ((aft 0 (entryDev [] [])).entry 1).map (fun w => (w.start 100000, w.stop 100000)) = some (600, 99999))
    ∧ (0 ∉ (aft 0 (entryDev [] [])).ck.openEntries ∧ 0 ∈ (aft 0 (entryDev [0] [])).ck.openEntries)
    ∧ ((aft 0 (entryDev [0] [])).tallyOpen = false ∧ (aft 0 (entryDev [0] [(.a, 1)])).tallyOpen = true
      ∧ ((entryDev [0] []).entry 0).map (fun w => decide (w.stop 100000 ≤ (aft 60 (entryDev [0] [])).ck.slot)) = some true
      ∧ ((entryDev [0] []).entry 0).map (fun w => decide ((aft 59 (entryDev [0] [])).ck.slot < w.stop 100000)) = some true
      ∧ ((entryDev [0] []).entry 0).map (fun w => decide (w.stop 100000 < (aft 61 (entryDev [0] [])).ck.slot)) = some true)
    ∧ ((entryDev [1] []).entry 1).map (fun w => w.task.mustFinish) = some false
    ∧ ((aft 60 (entryDev [2] [])).intakeOpen = true ∧ (aft 60 (entryDev [3] [])).codingOpen = true
      ∧ (aft 60 (entryDev [3] [])).pw.mode.packs = true
      ∧ (aft 60 { entryDev [2] [] with pk := {} }).intakeOpen = false ∧ (aft 60 { entryDev [3] [] with pk := {} }).codingOpen = false
      ∧ (aft 60 { entryDev [3] [] with pw := { mode := .store } }).pw.mode.packs = false) := by
  repeat' apply And.intro
  all_goals decide

/-- A round of the monitor with WAKE closed: 5 V of supply, 1 V at the input. -/
def closedWake : Measurement :=
  { vdd := 5000, wake := 1500, vbats := 6000, vbatsAlt := 7000, frzP := 3000, frzN := 1000, lastLow := none, lastHigh := none }

theorem witness_harnessMonitor :
    ((aft 0 { dev .replay with lb := { replay := some {} } }).pw.mode = .replay
      ∧ (aft 0 { dev .replay with lb := { replay := some {} } }).lb.replay = some {})
    ∧ (wakeClass closedWake = 1 ∧ 0 < closedWake.vdd ∧ closedWake.vdd ≤ 10 * closedWake.wake
      ∧ 10 * closedWake.wake ≤ 3 * closedWake.vdd ∧ vbatsClass closedWake = 0 ∧ 6000 ≤ closedWake.vbats
      ∧ (closedWake.vbats - closedWake.vbatsAlt).natAbs ≤ 1000)
    ∧ (let d : Dev := aft 0 { offDev with hn := { pins := { wake := { cls := 0, cand := 1 } } } };
      d.hn.pins.wake.cand = 1 ∧ d.hn.pins.wake.cls ≠ 1 ∧ d.pw.mode = .off ∧ d.pfail = false ∧ d.jt.ir ≠ .extest)
    ∧ (let d := aft 0 (asleep false); d.pw.mode = .retain ∧ d.pw.retainEntry = false ∧ d.pw.wakeEn.testBit 0 = true)
    ∧ ((aft 0 (dev .run)).pw.mode ≠ .off ∧ (aft 0 (dev .run)).pw.mode ≠ .retain ∧ (aft 0 (dev .run)).pw.mode ≠ .wake)
    ∧ ({ (dev .run).hn.pins with pair := .idle }.pair = .idle ∧ (dev .run).hn.pins.pair ≠ .idle)
    ∧ (let d := aft 0 { dev .run with ev := { live := true }, hn := { pins := { vbats := { cls := 0, cand := 4 } } } };
      d.ev.live = true ∧ d.hn.pins.vbats.fault = false ∧ (d.setPins (d.hn.pins.measure { closedWake with vbats := 0, vbatsAlt := 0 })).hn.pins.vbats.fault = true)
    ∧ (let o := { (dev .run).hn.pins with crossP := 1 };
      1 ≤ o.crossP ∧ o.frzP.cls ≠ 4 ∧ o.frzP.cls ≠ 5) := by
  repeat' apply And.intro
  all_goals decide

/-! ### The ring -/

theorem witness_linkTraining :
    (let d := aft 0 (ringDev .run 1 act { trn 1 with stepAt := 990000 });
      d.linksTrain = true ∧ d.pw.mode ≠ .replay ∧ (d.link .dn).step = 1 ∧ (d.link .dn).state = .training ∧ (d.link .up).step ≠ 1
      ∧ (d.link .up).state ≠ .training ∧ (d.link .dn).everActive = true ∧ d.hasRing = true
      ∧ (d.link .dn).state ≠ .reversed ∧ (d.link .dn).step < 3 ∧ (d.link .dn).state ≠ .active)
    ∧ (let x := { trn 1 with state := .los, stepAt := 0 }; x.step = 1 ∧ x.stepAt + 10000000 ≤ 10000000 ∧ ¬ x.stepAt + 10000000 ≤ 9999999)
    ∧ ((trn 2).step = 2 ∧ (trn 3).step = 3 ∧ (trn 5).step = 5 ∧ (trn 5).everActive = false ∧ (trn 5).unacked = [])
    ∧ ({ trn 4 with pongs := List.replicate 8 5 }.pongs.length = 8 ∧ { trn 4 with pongs := List.replicate 7 5 }.pongs.length < 8)
    ∧ ({ trn 5 with everActive := true }.everActive = true ∧ (trn 5).restart = false)
    ∧ (let d := aft 0 (ringDev .run 1 act { trn 3 with stepAt := 900000 });
      3 ≤ (d.link .dn).step ∧ (d.link .dn).retrain = false ∧ (d.link .dn).stepAt + 100000 ≤ d.now
      ∧ d.now < { d.link .dn with stepAt := 900001 }.stepAt + 100000)
    ∧ (let d := aft 0 (ringDev .run 1 act { trn 3 with retrain := true, stepAt := 0 });
      (d.link .dn).retrain = true ∧ (d.link .dn).stepAt + 1000000 ≤ d.now ∧ d.now < { d.link .dn with stepAt := 1 }.stepAt + 1000000)
    ∧ (act.state = .active ∧ act.asleep = false ∧ { act with asleep := true }.asleep = true)
    ∧ ({ trn 4 with pingOwed := [7] }.pingOwed = 7 :: [] ∧ (trn 4).pingOwed = [])
    ∧ (let d := aft 0 { ringDev .replay 1 act act with lb := { replay := some {} } };
      d.pw.mode = .replay ∧ d.linksTrain = true ∧ d.lb.replay = some {}) := by
  repeat' apply And.intro
  all_goals decide

/-- A frame that waits to be acknowledged. -/
def kept (seq : Nat) : SentFrame := { seq := seq, frame := { frame .fold 1 0 [] with bcast := true } }

theorem witness_linkSets :
    (let d := aft 0 (ringDev .run 1 act { act with unacked := [{ kept 4095 with sentAt := 996000 }, kept 0], held := [2, 0, 0, 0],
                                                        credits := [6, 8, 4, 4] });
      d.pw.mode ≠ .replay ∧ d.linkLive .dn = true ∧ findSeq (0#12).toNat (d.link .dn).unacked = some 1
      ∧ findSeq (1#12).toNat (d.link .dn).unacked = none ∧ (d.link .dn).tries < 8 ∧ (d.link .dn).unacked ≠ []
      ∧ { kept 4095 with sentAt := 996000 }.sentAt + 4000 ≤ d.now ∧ d.now < { kept 4095 with sentAt := 996001 }.sentAt + 4000
      ∧ (d.link .dn).held.length = 4 ∧ (d.link .dn).credits.length = 4 ∧ d.isAnchor = false ∧ d.ck.source ≠ 2
      ∧ (d.link (Link.other .dn)).broken = false ∧ (d.link (Link.other .dn)).state = .active)
    ∧ ({ act with tries := 8 }.tries = 8 ∧ act.unacked = []) ∧ (aft 0 (ringDev .run 0 act act)).isAnchor = true
    ∧ ((0x3452#16).toNat = markCheck (7000000#56).toNat (3264#24).toNat (1#10).toNat ∧ (0#16).toNat ≠ markCheck 0 0 0)
    ∧ (let d := aft 0 { ringDev .run 1 act act with ck := { (dev .run).ck with source := 2 } };
      d.isAnchor = false ∧ d.ck.source = 2 ∧ d.rg.markTaken = false ∧ d.ck.running = true ∧ d.linkLive .up = true
      ∧ (4799976 + 0 + 24) / 48 ≤ d.ck.lenReg - d.ck.slip ∧ d.ck.lenReg - d.ck.slip < (4800024 + 0 + 24) / 48
      ∧ (4800024#24).toNat = 4800024) := by
  repeat' apply And.intro
  all_goals decide +kernel

theorem witness_linkTransmission :
    (let d := aft 0 (ringDev .run 1 act { act with markOwed := some (100, 0, 0) });
      d.pw.mode ≠ .replay ∧ d.linkLive .dn = true ∧ (d.link .dn).markOwed = some (100, 0, 0) ∧ d.isAnchor = false)
    ∧ (act.markOwed = none ∧ { act with ackOwed := some 4095 }.ackOwed = some 4095 ∧ act.ackOwed = none
      ∧ { act with nakOwed := some 0 }.nakOwed = some 0 ∧ act.nakOwed = none ∧ { act with crdOwed := [3] }.crdOwed = 3 :: []
      ∧ act.crdOwed = [])
    ∧ (let x := { act with unacked := [kept 5], resend := [5] };
      x.resend = 5 :: [] ∧ x.unacked.find? (fun f => f.seq == 5) = some (kept 5) ∧ (kept 5).frame.typ.cls = 0 ∧ act.resend = []
      ∧ { x with resendFirst := true }.resendFirst = true)
    ∧ ([((kept 5).frame, some Link.up)].find? (fun f => f.1.typ.cls == 0) = some ((kept 5).frame, some .up)
      ∧ 0 < { act with credits := [1, 0, 0, 0] }.credits.getD 0 0 ∧ Link.up ≠ .dn ∧ act.through = [])
    ∧ ([(kept 5).frame].find? (fun f => f.typ.cls == 0) = some (kept 5).frame ∧ act.locals = [])
    ∧ (Link.up ≠ (aft 0 (ringDev .run 1 act act)).outDown ∧ (aft 0 { ringDev .run 1 act act with cf := {} }).originates = false
      ∧ (aft 0 (ringDev .run 1 act act)).rg.roping = none) := by
  repeat' apply And.intro
  all_goals decide

/-- A REP for node 2 with link sequence `seq`, after some hops. -/
def passing (seq hops : Nat) : List Byte := ({ frame .rep 0 2 [0, 0, 0, 0] with hops := hops } : Frame).wire seq

theorem witness_frameReception :
    (let d := aft 0 (ringDev .run 1 { act with rxSeq := 0, nakSent := true } act);
      d.pw.mode ≠ .replay ∧ d.linkLive .up = true ∧ (d.link .up).nakSent = true
      ∧ ((d.link .up).rxSeq + 4096 - 4095) % 4096 = 1 ∧ ((d.link .up).rxSeq + 4096 - 2049) % 4096 = 2047
      ∧ 2047 < ((d.link .up).rxSeq + 4096 - 2048) % 4096 ∧ ((d.link .up).rxSeq + 4096 - 0) % 4096 = 0)
    ∧ (let d := aft 0 (ringDev .run 1 act act);
      (d.link .up).nakSent = false ∧ readFrame (passing 0 8) = .frame { frame .rep 0 2 [0, 0, 0, 0] with hops := 8 } 0
      ∧ FrameType.rep ≠ .enum ∧ FrameType.rep ≠ .enumEnd ∧ 2 ≠ d.rg.nodeId ∧ 8 ≤ 2 * d.ringCount ∧ 2 * d.ringCount < 9
      ∧ (∃ seq, readFrame (passing 4095 9) = .frame { frame .rep 0 2 [0, 0, 0, 0] with hops := 9 } seq))
    ∧ (readFrame foldBytes = .frame { frame .fold 2 0 [2, 0, 0, 0] with bcast := true } 0
      ∧ Link.dn ≠ (aft 0 (ringDev .run 1 act act)).logical .up)
    ∧ (let bs := (passing 0 0).set 8 1; let d := aft 0 (ringDev .run 1 act act); let v := leBytes (bs.take 8);
      readFrame bs = .bad ∧ 8 ≤ bs.length ∧ v / 2 ^ 16 % 2 ^ 10 ≠ d.rg.nodeId ∧ (d.link (d.outFrom .up)).state = .active
      ∧ (d.link (d.outFrom .up)).through = [] ∧ 0 < (d.link (d.outFrom .up)).credits.getD (v / 2 ^ 4 % 2 ^ 2) 0)
    ∧ (readFrame [] = .bad ∧ ¬ 8 ≤ ([] : List Byte).length)
    ∧ (let h := 0xEE#8 :: delivBytes.tail.take 14;
      readFrame (h ++ toBytes (crc32 h) 4) = .malformed 2 ((aft 0 (ringDev .run 1 { act with rxSeq := 5 } act)).link .up).rxSeq)
    ∧ ((0x3F#8).toNat ≤ 0x3F ∧ ¬ ((0x40#8).toNat ≤ 4 ∨ (0x40#8).toNat = 0x10 ∨ (0x40#8).toNat = 0x11 ∨ (0x40#8).toNat = 0x20
      ∨ (0x30 ≤ (0x40#8).toNat ∧ (0x40#8).toNat ≤ 0x3F)))
    ∧ (aft 0 (ringDev .run 1 { act with state := .los } act)).linkLive .up = false
    ∧ (aft 0 { ringDev .replay 1 act act with lb := { replay := some {} } }).lb.replay = some {} := by
  refine ⟨by decide, ⟨by decide, by decide +kernel, by decide, by decide, by decide, by decide, by decide, 4095, by decide +kernel⟩, ?_⟩
  decide +kernel

/-- The anchor, enumerating. -/
def anchorDev (p : EnumPhase) : Dev := { ringDev .run 0 act act with rg :=
  { (ringDev .run 0 act act).rg with enumPhase := p, enumAt := 0 } }

/-- A node that holds an ENUM. -/
def holdingEnum : Dev := { ringDev .run 1 act (trn 2) with rg := { (ringDev .run 1 act (trn 2)).rg with enumHeld := some (2, 0, 9) } }

/-- An ENUM of an identifier in a direction, from the anchor that says 9. -/
def enumOf (id dir : Nat) : Frame := frame .enum 0 0 [wd id, wd dir, 9, 0, 0, 0, 0, 0]

theorem witness_ringEnumeration :
    ((aft 0 (anchorDev .wanted)).enumReady = true ∧ (st (anchorDev .wanted)).timed 0 ∧ (aft 0 (anchorDev .idle)).enumReady = false)
    ∧ ((aft 0 (anchorDev .down)).isAnchor = true ∧ (aft 0 (anchorDev .down)).rg.enumPhase = .down
      ∧ 0 + 1000000000 ≤ (aft 999000000 (anchorDev .down)).now ∧ (aft 998999999 (anchorDev .down)).now < 0 + 1000000000)
    ∧ ((aft 0 holdingEnum).rg.enumHeld = some (2, 0, 9) ∧ (aft 0 holdingEnum).rg.enumAt + 100000000 ≤ (aft 99000000 holdingEnum).now
      ∧ (aft 98999999 holdingEnum).now < (aft 0 holdingEnum).rg.enumAt + 100000000)
    ∧ ((st (ringDev .run 1 act act)).frameIn 0 .up ((enumOf 1022 0).wire 0) .enum (enumOf 1022 0) 0
      ∧ (aft 0 (ringDev .run 1 act act)).isAnchor = false ∧ ¬ 1022 = 1023 ∧ (1023#14).toNat % 1024 = 1023
      ∧ ((aft 0 (ringDev .run 1 act act)).link (Link.other .up)).state = .active
      ∧ ((aft 0 (ringDev .run 1 act (trn 2))).link (Link.other .up)).state = .training
      ∧ ((aft 0 (ringDev .run 1 act { state := .los })).link (Link.other .up)).state = .los)
    ∧ ((st (ringDev .run 1 act act)).frameIn 0 .up ((enumOf 1023 1).wire 0) .enum (enumOf 1023 1) 0
      ∧ ¬ 1023 ≤ (aft 0 (ringDev .run 1 act act)).rg.dMax + 1 ∧ 4 ≤ (aft 0 (ringDev .run 1 act act)).rg.dMax + 1)
    ∧ ((st (anchorDev .idle)).frameIn 0 .up ((enumOf 1 0).wire 0) .enum (enumOf 1 0) 0 ∧ (aft 0 (anchorDev .idle)).isAnchor = true)
    ∧ ((st (anchorDev .down)).frameIn 0 .dn ((frame .enumEnd 3 0 [3, 0, 0, 0]).wire 0) .enumEnd (frame .enumEnd 3 0 [3, 0, 0, 0]) 0
      ∧ (aft 0 (anchorDev .down)).rg.up.state = .active ∧ (0#14).toNat % 2 = 0)
    ∧ ((st (anchorDev .up)).frameIn 0 .dn ((frame .enumEnd 3 0 [0x3FFF, 1, 0, 0]).wire 0) .enumEnd (frame .enumEnd 3 0 [0x3FFF, 1, 0, 0]) 0
      ∧ (1#14).toNat % 2 = 1 ∧ (aft 0 (anchorDev .up)).rg.enumPhase = .up)
    ∧ (let f := { frame .ringmap 0 0 [3, 1024, 1, 0] with bcast := true };
      (st (ringDev .run 1 act act)).frameAll 0 .up (f.wire 0) .ringmap f 0)
    ∧ (st (ringDev .run 1 act act)).frameAll 0 .up foldBytes .fold { frame .fold 2 0 [2, 0, 0, 0] with bcast := true } 0 := by
  repeat' apply And.intro
  all_goals decide +kernel

/-- A node with one guest slot of 1,024 words at page 4, a tally hold at pages 8 and 9, a rope of one member, and its seal engine's state. -/
def guestDev (k : Kist) (mem : List (Nat × Code)) (fill : List Filling := []) : Dev :=
  { ringDev .run 1 act act with
    rg := { (ringDev .run 1 act act).rg with guestEn := true, gWords := 1024, guestHold := 2, filling := fill },
    ar := { mem := mem, holds := [{ base := 0, pages := 2, sealed := true, rope := 1 }, { base := 8, pages := 2, policy := .tally },
                                  { base := 4, pages := 1 }] },
    ks := { k with slots := 2, wRec := 1024, recs := [{ state := .local', seq := 9, members := [.await 36] }, {}] } }

/-- The replica of node 3's tally 0, with the value 5. -/
def replica : List Word := [0x1A7E#14, 48, 0, 0, 0, 0, 5] ++ List.replicate 85 0

/-- A guest slot that holds record 9 of node 3, whole; and one that is being filled. -/
def held (state : Word) : List (Nat × Code) := [(4096, encodeWord 3#14), (4097, encodeWord 9#14), (4099, encodeWord state)]

theorem witness_ringRecords :
    (let f := frame .rep 3 1 [7, 0, 0, 1];
      let d := aft 0 (guestDev {} []);
      (st (guestDev {} [])).frameHere 0 .up (f.wire 0) .rep f 0 ∧ f.reply = false
      ∧ pickGuest ((st (guestDev {} [])).heard 0 .up f 0 |>.guestHeads d.guestSlots).2 d.rg.guestPtr 3 7 = some (4096, 0)
      ∧ (([1, 2, 3, 4] : List Word).drop (d.rg.gWords - 4)).length ≤ 3 ∧ Memory.wf d.ar.mem = true
      ∧ (∀ i, i < 4 → d.writeHeld (4096 + i) = false)
      ∧ pickGuest [] 0 3 7 = none)
    ∧ (let f := frame .rep 3 1 [9, 0, 1, 3, 1, 2, 3, 4];
      let x : Filling := { slot := 4096, src := 3, seq := 9, next := 1 };
      let d := aft 0 (guestDev {} (held 1) [x]);
      (st (guestDev {} (held 1) [x])).frameHere 0 .up (f.wire 0) .rep f 0
      ∧ d.rg.filling.find? (fun x => x.src == 3 && x.seq == 9 && x.next == 1) = some x ∧ (aft 0 (guestDev {} [])).rg.filling = []
      ∧ ∀ i, i < 145 → d.writeHeld (4096 + 3 + i) = false)
    ∧ (let f := frame .belay 2 1 [9, 0, 0, 0];
      let d := aft 0 (guestDev {} []);
      (st (guestDev {} [])).frameHere 0 .up (f.wire 0) .belay f 0 ∧ d.slotOfSeq 9 = some 0
      ∧ d.team.idxOf? 2 = some 0 ∧ (d.slotRec 0).member 0 ≠ .belayed ∧ d.slotOfSeq 8 = none ∧ d.team.idxOf? 3 = none)
    ∧ (let f := frame .query 3 1 [0, 9, 0, 0];
      let e := (st (guestDev {} (held 2))).heard 0 .up f 0;
      (st (guestDev {} (held 2))).frameHere 0 .up (f.wire 0) .query f 0
      ∧ ((e.guestHeads e.guestSlots).2.find? fun h => h.state == 2 && h.src == 3 && h.seq == 9)
        = some { slot := 4096, src := 3, seq := 9, state := 2 }
      ∧ (let g := (st (guestDev {} (held 1))).heard 0 .up f 0;
        ((g.guestHeads g.guestSlots).2.find? fun h => h.state == 2 && h.src == 3 && h.seq == 9) = none))
    ∧ (let f := frame .query 3 1 [1, 0, 0, 0];
      let m := [(9216, encodeWord 0x1A7E#14), (9217, encodeWord 48#14), (9222, encodeWord 5#14)];
      let e := (st (guestDev {} m)).heard 0 .up f 0;
      (st (guestDev {} m)).frameHere 0 .up (f.wire 0) .query f 0
      ∧ ((e.tallyHeads e.tallyGuests).2.find? fun h => h.used && h.who == wd (0 % 16 + 16 * 3)).map TallyHead.slot = some 9216
      ∧ ((e.tallyHeads e.tallyGuests).2.find? fun h => h.used && h.who == wd (1 % 16 + 16 * 3)) = none) := by
  repeat' apply And.intro
  all_goals decide +kernel

set_option maxRecDepth 20000 in
theorem witness_ringReplicas :
    (let f := frame .trep 3 1 replica;
      let m := [(9216, encodeWord 0x1A7E#14), (9217, encodeWord 48#14), (9222, encodeWord 5#14)];
      let e := (st (guestDev {} m)).heard 0 .up f 0;
      (st (guestDev {} m)).frameHere 0 .up (f.wire 0) .trep f 0 ∧ f.reply = false
      ∧ ((e.tallyHeads e.tallyGuests).2.find? fun h => h.used && h.who == replica.getD 1 0#14).map (fun h => (h.slot, h.value)) = some (9216, 5)
      ∧ 5 ≤ replicaValue replica ∧ replicaValue (replica.set 6 4#14) < 5
      ∧ ((e.tallyHeads e.tallyGuests).2.find? fun h => !h.used).map TallyHead.slot = some (9216 + 128)
      ∧ (∀ i, i < 128 → (aft 0 (guestDev {} m)).writeHeld (9216 + i) = false)
      ∧ (aft 0 (ringDev .run 1 act act)).tallyGuests = [])
    ∧ (let f := { frame .trep 2 1 replica with reply := true };
      let r : Recover := { port := .a, tally := 0, tick := 99 };
      (st (guestDev { recover := [r] } [])).frameHere 0 .up (f.wire 0) .trep f 0 ∧ 2 ∈ (aft 0 (guestDev {} [])).team
      ∧ 3 ∉ (aft 0 (guestDev {} [])).team ∧ ∀ x ∈ r.replicas, x.node ≠ 2)
    ∧ (let f := { frame .qnone 2 1 [0, 9, 0, 0] with reply := true };
      let r : Repair := { slot := 0, member := 0, tick := 99 };
      let d := aft 0 (guestDev { repair := some r } []);
      (st (guestDev { repair := some r } [])).frameHere 0 .up (f.wire 0) .qnone f 0 ∧ d.ks.repair = some r
      ∧ d.team[r.member]? = some 2 ∧ ofWords ((([0#14, 9, 0, 0] : List Word).drop 1).take 2) = (d.slotRec r.slot).seq
      ∧ (aft 0 (guestDev {} [])).ks.repair = none)
    ∧ (let d := aft 0 (guestDev {} []);
      0 < d.ks.slots ∧ (d.slotRec 0).member ((0 : Fin 4) : Nat) = .await 36
      ∧ 36 + 64 ≤ d.ck.tick ∧ 0 < d.ks.recs.length ∧ ∀ k, k < d.ks.slots → (d.slotRec k).member 3 = .wait) := by
  repeat' apply And.intro
  all_goals decide +kernel

theorem witness_ringServices :
    (let d := aft 0 (rsemDev 0 4);
      let f := frame .semclaim 2 0 [31, 98, 0, 0];
      (st (rsemDev 0 4)).frameHere 0 .up (f.wire 0) .semclaim f 0 ∧ 2 ≠ d.rg.nodeId ∧ d.isAnchor = true
      ∧ (d.ck.tick + 2 ^ 28 - 98) % 2 ^ 28 = 2 ∧ 2 < (d.ck.tick + 2 ^ 28 - 97) % 2 ^ 28
      ∧ 2 ^ 27 ≤ (d.ck.tick + 2 ^ 28 - 101) % 2 ^ 28 ∧ 15 < d.cm.semR.length
      ∧ (aft 0 (rsemDev 1 4)).isAnchor = false)
    ∧ (let d := aft 0 (rsemDev 0 4);
      let f := frame .semrel 3 0 [31, 0, 0, 0];
      (st (rsemDev 0 4)).frameHere 0 .up (f.wire 0) .semrel f 0 ∧ (d.semR 15).party ≠ none
      ∧ partyNo (d.semR 15).party = (31#14).toNat / 16 % 4 ∧ (d.semR 15).node = 3
      ∧ (d.semR 14).party = none ∧ partyNo (d.semR 15).party ≠ 2 ∧ (d.semR 0).node ≠ 3)
    ∧ (let d := aft 0 (rsemDev 1 4);
      let f := { frame .semstate 0 0 [7, 1, 2, 1, 2, 0, 0, 0] with bcast := true };
      (st (rsemDev 1 4)).frameAll 0 .up (f.wire 0) .semstate f 0 ∧ d.claimOf 7 ≠ none
      ∧ (d.claimOf 7).map (fun c => c.party.code) = some 2 ∧ (1#14).toNat = d.rg.nodeId ∧ (3#14).toNat ≠ d.rg.nodeId
      ∧ d.claimOf 6 = none ∧ 7 < d.cm.semR.length ∧ Party.ofCode (2 % 4) = some .portB ∧ ¬ (d.semR 6).party = some .portB)
    ∧ (let f := frame .peer 3 1 [0, 1, 5, 0];
      (st (ringDev .run 1 act act)).frameHere 0 .up (f.wire 0) .peer f 0 ∧ (aft 0 (ringDev .run 1 act act)).pl.inbox.length < 8
      ∧ 8 ≤ (List.replicate 8 ({ port := .a, src := 3, words := [] } : PeerMsg)).length)
    ∧ (let d := { peerDev (cmd .started [0x0040, 3, 1, 9]) with rg :=
          { (peerDev (cmd .started [0x0040, 3, 1, 9])).rg with peers := [(.a, 3, 100)], up := { act with rxSeq := 5 } } };
      (st d).frameHere 0 .up delivBytes .deliv (frame .deliv 3 1 [0, 0, 0, 0]) 5
      ∧ (aft 0 d).rg.peers.find? (fun x => x.2.1 == 3) = some (.a, 3, 100)
      ∧ ((aft 0 d).cmd .a).map Cmd.op = some 0x0040 ∧ ∀ x ∈ (aft 0 d).rg.peers, x.2.1 ≠ 2)
    ∧ (let f := { frame .keep 0 0 [0xFF, 0, 0, 0] with bcast := true };
      (st (ringDev .run 1 act act)).frameAll 0 .up (f.wire 0) .keep f 0 ∧ (0xFF#14).toNat ≠ 0)
    ∧ (let d := entries [{ owner := 5, banks := 1, endAnchored := false, task := .keepAlive, first := 640, last := 650 }]
          { ringDev .run 1 act act with rg := { (ringDev .run 1 act act).rg with why := 1 } };
      let d := { d with cf := { d.cf with ringNodes := 4 } };
      (aft 0 d).taskNow .keepAlive = true ∧ (aft 10 d).taskNow .keepAlive = true
      ∧ (aft 11 d).taskNow .keepAlive = false ∧ (aft 0 d).originates = true ∧ (aft 0 d).keepDue = true ∧ (aft 0 d).rg.why ≠ 0
      ∧ (aft 0 (ringDev .run 1 act act)).keepDue = false ∧ (aft 0 (dev .run)).originates = false) := by
  repeat' apply And.intro
  all_goals decide +kernel

/-- RETAIN at a node of the ring, with what its UP link does. -/
def sleepNode (x : LinkSt) : Dev := { asleep false with cf := (ringDev .run 1 x act).cf, rg := (ringDev .run 1 x act).rg }

/-- A node that has left RETAIN in the slot of the command, by the timer. -/
def justAwake (pass : Bool) : Dev :=
  let d := sleepNode { state := .training }
  { d with pw := { d.pw with mode := .wake, shortWake := true, wakeAt := 1000000, wakeSrc := .timer },
           rg := { d.rg with wasPass := pass } }

theorem witness_sleepingRing :
    (let d := aft 0 (sleepNode { state := .pass });
      d.pw.mode = .retain ∧ d.pw.retainEntry = false ∧ (d.link .up).state = .pass ∧ d.pw.wakeEn.testBit 1 = true
      ∧ d.logical .up = .up ∧ d.rg.numbered = true ∧ (∃ f seq, readFrame belayBytes = .frame f seq ∧ f.bcast = false ∧ f.dst = d.rg.nodeId))
    ∧ (let e := sleepNode { state := .pass };
      let d := aft 0 { e with pw := { e.pw with retainEntry := true } }; d.pw.retainEntry = true ∧ d.pw.entryWake = none)
    ∧ (((aft 0 (sleepNode { state := .listen })).link .up).state = .listen ∧ ((aft 0 (sleepNode { state := .off })).link .up).state ≠ .listen
      ∧ ((aft 0 (sleepNode { state := .off })).link .up).state ≠ .pass)
    ∧ ({ (asleep false).pw with wakeEn := 0 }.wakeEn.testBit 2 = false ∧ (aft 0 (dev .run)).pw.mode ≠ .retain)
    ∧ (let d := aft 0 (justAwake true);
      d.pw.mode ≠ .retain ∧ d.wakingNow = true ∧ d.rg.wasPass = true ∧ d.pw.wakeEn.testBit 1 = true ∧ d.pw.wakeSrc ≠ .portCs
      ∧ (aft 1 (justAwake true)).wakingNow = false)
    ∧ (let e := justAwake false; let d := aft 0 { e with pw := { e.pw with wakeEn := 0 } };
      d.wakingNow = true ∧ d.rg.wasPass = false ∧ d.pw.wakeEn.testBit 1 = false)
    ∧ (let d := aft 0 { ringDev .run 1 { trn 2 with stepAt := 0 } act with
          now := 10000000, rg := { (ringDev .run 1 { trn 2 with stepAt := 0 } act).rg with why := 1 } };
      d.pw.mode ≠ .replay ∧ d.pw.mode.beacons = true ∧ d.rg.why ≠ 0 ∧ (d.link .up).state = .training ∧ (d.link .up).step = 2
      ∧ (d.link .up).stepAt + 10000000 ≤ d.now ∧ (d.link .up).lastBeacon = none)
    ∧ (let d := aft 0 (ringDev .run 1 { trn 2 with beacon := some 1000000, lastBeacon := some 0 } act);
      (d.link .up).beacon = some 1000000 ∧ 1000000 ≤ d.now ∧ d.now < 1000001 ∧ (d.link .dn).beacon = none
      ∧ (d.link .up).lastBeacon = some 0 ∧ ¬ 0 + 100000000 ≤ d.now ∧ 0 + 100000000 ≤ (aft 99000000 (dev .run)).now) := by
  refine ⟨⟨by decide, by decide, by decide, by decide, by decide, by decide, { frame .belay 2 1 [9, 0, 0, 0] with hops := 2 }, 0xABC,
    by decide +kernel, rfl, by decide⟩, by decide, by decide, by decide, by decide, by decide, by decide, by decide⟩

/-! ### Time -/

/-- A word on the wire to port A, and a burst's word that it is to drive. -/
def crossing : Dev := holding .run fun x => { x with incoming := [{ incoming 5 (.of 1 true true 9) with at' := 1000004 }] }

/-- Two words on the wire to port A. -/
def crossing2 : Dev := holding .run fun x => { x with incoming :=
  [{ incoming 5 (.of 1 true true 9) with at' := 1000004 }, { incoming 6 (.of 2 true true 9) with at' := 1000006 }] }

theorem witness_timePasses :
    (dark.pw.powered = false ∧ ∀ x ∈ (dev .run).dues, (dev .run).now + 5 < x.1)
    ∧ (∀ x ∈ crossing.dues, crossing.now + 3 < x.1)
    ∧ (let i := { incoming 5 (.of 1 true true 9) with at' := 1000004 };
      crossing.pw.powered = true ∧ crossing.dues = [(1000004, Due.arrive .a i)] ∧ crossing.now ≤ 1000004 ∧ 1000004 ≤ crossing.now + 4)
    ∧ (let i := { incoming 5 (.of 1 true true 9) with at' := 1000004 }; let j := { incoming 6 (.of 2 true true 9) with at' := 1000006 };
      crossing2.dues = [(1000004, Due.arrive .a i), (1000006, Due.arrive .a j)]
      ∧ ((crossing2.pass 4).fallDue (.arrive .a i)).dues = [(1000006, Due.arrive .a j)]) := by decide

/-! ### Single steps, with results worked out from the spec -/

/-- Device state after a command. -/
def after (c : Instr) (d : Dev) : Option Dev :=
  match exec c (st d) with
  | .next t => some t.dev
  | _ => none

/-- R32, R188: a code word gives its data back, also with one bit inverted; the word 0 has no check bit set. -/
theorem test_code_word_of_one : codeData (encodeWord 1#14) = 1#14 ∧ codeCheck (encodeWord 0#14) = 0
    ∧ (decodeCode (encodeWord 1#14 ^^^ 8#20)).data = 1#14 ∧ (decodeCode (encodeWord 1#14 ^^^ 8#20)).out = .corrected := by decide

/-- R245, R247: port B takes a free semaphore; the next claim of port A only sets its want bit. -/
theorem test_claim_then_want : (after (.semLocalClaim 0 .portB 7) (dev .run)).map (fun d => d.semL 7) = some { owner := some .portB }
    ∧ ((after (.semLocalClaim 0 .portB 7) (dev .run)).bind fun d => after (.semLocalClaim 1 .portA 7) d).map (fun d => d.semL 7)
      = some { owner := some .portB, wantA := true } := by decide

/-- R256: a POST of 17 words is refused and one of 16 fills the channel. -/
theorem test_post_bounds : (after (.mbxPost 0 .portA 0 17#14) (dev .run)).map (fun d => ((d.chan 0).last, (d.chan 0).refused)) = some (3, 1)
    ∧ (after (.mbxPost 0 .portA 0 16#14) (dev .run)).map (fun d => ((d.chan 0).last, (d.chan 0).words, (d.chan 0).free)) = some (1, 16, 0) := by
  decide

/-- R173, R194: one low half opens a merge entry in the tick in which its word has crossed, and queues no word. -/
theorem test_half_word_waits :
    let w := after (.write 0 .a [0x02#8, 0xFD, 0, 0, 0, 0x0A] [.of 0x155#14 true false 9]) (dev .run);
    (w.map fun d => (d.port .a).merge) = some []
    ∧ (w.bind fun d => after (.jtagBypass 8) d).map (fun d => (d.port .a).merge) = some []
    ∧ (w.bind fun d => after (.jtagBypass 9) d).map (fun d => ((d.port .a).merge, (d.port .a).wq))
      = some ([{ addr := 5, lo := some 0x55#7, hi := none, tick := 100 }], []) := by decide

/-- R175: a word whose last byte has crossed is written in the port's first slot of its bank 3 slots after, and no sooner. -/
theorem test_word_is_written :
    let w := after (.write 0 .a [0x02#8, 0xFD, 0, 0, 0, 0x0A] [.of 0x155#14 true true 30]) (dev .run);
    (w.bind fun d => after (.portWordWrite 32 .a) d).map (fun d => d.rawGet 5) = some 0#20
    ∧ (w.bind fun d => after (.portWordWrite 33 .a) d).map (fun d => d.rawGet 5) = some (encodeWord 0x155#14)
    ∧ (w.bind fun d => after (.portWordWrite 34 .a) d).map (fun d => d.rawGet 5) = some 0#20 := by decide

/-- R508: the identification code. -/
theorem test_idcode : (after (.jtagIdcode 3) (dev .run)).map (fun d => d.jt.shifted) = some 0x1E01456B := by decide

/-- R134: VDD's return finds OFF, the pins as they are and the supplies of the ports. -/
theorem test_power_on : (after (.vddPowerOn 0) dark).map (fun d => (d.pw.mode, d.pw.powered, (d.port .a).vddio)) = some (.off, true, true) := by
  decide

/-- R400: the anchor's next MARK leaves with acc in sixteenths of a cycle and no hop. -/
theorem test_mark_leaves : (after (.linkTransmit 0 .dn) (ringDev .run 0 act { act with markOwed := some (100, 0, 0) })).map
    (fun d => (d.link .dn).sent) = some (.mark 100 (48 * 640) 0) := by decide

/-- R65, R27, R82: a freeze request acts at the check point, and its boundary is fixed 5 slots later. -/
theorem test_freeze_takes_five_slots :
    let d := { dev .run with pl := { freezeReq := [.a], cmdA := some (cmd .started [0x0010]) } };
    let f := after (.urgentCheckPoint 0) d;
    f.map (fun d => (d.pw.mode, d.pk.frz)) = some (.hold, some 100)
    ∧ (f.bind fun d => after (.jtagBypass 4) d).map (fun d => (d.cmd .a).isSome) = some true
    ∧ (f.bind fun d => after (.jtagBypass 5) d).map (fun d => (d.cmd .a).isSome) = some false := by decide

end Sys2Proof.Tests
end

/-! ### One step (R1, R22) -/

namespace Sys2Proof.Machine
open Sys2Proof

theorem step_of_front (c : Instr) (s : State) : step { s with pending := c :: s.pending } = exec c s := rfl

theorem step_of_empty {s : State} (h : s.pending = []) : step s = .next s := by simp only [step, h]

/-- Settles O1, from the two arms of `step`; no word spells a command, so fetching one places nothing. -/
theorem stepRunsFrontCommand : Obligations.StepRunsFrontCommand :=
  ⟨step_of_front, fun _ h => step_of_empty h, fun _ _ _ => rfl⟩

end Sys2Proof.Machine

/-! ### Locked words and plain words of the control window (R9, R11, R13) -/

namespace Sys2Proof.Machine
open Sys2Proof

/-- The addresses of the locked words, of a two-word value its word 0. -/
abbrev LockedWord (a : Nat) : Prop :=
  a = 0x1F0406 ∨ (0x1F040A ≤ a ∧ a < 0x1F040E) ∨ a = 0x1F0801 ∨ (0x1F0C00 ≤ a ∧ a < 0x1F0C80 ∧ a % 8 < 3)
    ∨ a = 0x1F0C80 ∨ (0x1F1480 ≤ a ∧ a < 0x1F14C0) ∨ (0x1F1800 ≤ a ∧ a < 0x1F1805)
    ∨ (0x1F1C40 ≤ a ∧ a < 0x1F1C50) ∨ a = 0x1F2030 ∨ a = 0x1F2031 ∨ (0x1F2046 ≤ a ∧ a < 0x1F2049)

/-- The addresses of the words of the writable two-word values. -/
abbrev GatheredWord (a : Nat) : Prop :=
  (0x1F0406 ≤ a ∧ a < 0x1F0408) ∨ (0x1F1804 ≤ a ∧ a < 0x1F1806) ∨ (0x1F2031 ≤ a ∧ a < 0x1F2033)
    ∨ (0x1F0839 ≤ a ∧ a < 0x1F083B) ∨ (0x1F0C00 ≤ a ∧ a < 0x1F0C80 ∧ (a % 8 = 3 ∨ a % 8 = 4))

/-- One branch of a table of values: it answers where its condition holds, and leaves the rest to what follows it. -/
theorem isSome_branch_iff {α : Type} {p q : Prop} [Decidable p] {x : α} {o : Option α} (hp : p → q)
    (hrest : ¬ p → (o.isSome = true ↔ q)) : (if p then some x else o).isSome = true ↔ q := by
  by_cases h : p
  · rw [if_pos h]
    exact iff_of_true rfl (hp h)
  · rw [if_neg h]
    exact hrest h

theorem Dev.lkSet_isSome_iff (d : Dev) (a v : Nat) : (d.lkSet a v).isSome = true ↔ LockedWord a := by
  unfold Dev.lkSet
  iterate 22 refine isSome_branch_iff (fun _ => by omega) fun _ => ?_
  exact iff_of_false Bool.false_ne_true (by omega)

theorem gatherBase_isSome_iff (a : Nat) : (gatherBase a).isSome = true ↔ GatheredWord a := by
  unfold gatherBase
  iterate 5 refine isSome_branch_iff (fun _ => by omega) fun _ => ?_
  exact iff_of_false Bool.false_ne_true (by omega)

theorem gatherBase_eq_none {a : Nat} (h : ¬ GatheredWord a) : gatherBase a = none :=
  Option.not_isSome_iff_eq_none.1 fun hs => h ((gatherBase_isSome_iff a).1 hs)

/-- An address that no two-word value holds is locked exactly where it is a locked word. -/
theorem isLocked_iff (d : Dev) {a : Nat} (hg : ¬ GatheredWord a) : isLocked d a = true ↔ LockedWord a := by
  rw [isLocked, gatherBase_eq_none hg]
  exact d.lkSet_isSome_iff a 0

/-- R461: whoever is not the pilot only raises the violation with a write of a locked word. -/
theorem Dev.regWrite_locked {d : Dev} {y : Party} {a : Nat} (hl : LockedWord a) (hg : ¬ GatheredWord a) (hy : y ≠ .pilot)
    (v : Word) : d.regWrite y a v = d.lockViol := by
  rw [Dev.regWrite, if_pos ((isLocked_iff d hg).2 hl), if_neg hy]

/-- R13: the pilot's write of a locked word is judged by the checks that involve it. -/
theorem Dev.regWrite_pilot {d : Dev} {a : Nat} (hl : LockedWord a) (hg : ¬ GatheredWord a) (v : Word) :
    d.regWrite .pilot a v = d.lkWrite a v.toNat := by
  rw [Dev.regWrite, if_pos ((isLocked_iff d hg).2 hl), if_pos rfl, gatherBase_eq_none hg]

/-- Any other word of one word's width takes a plain write. -/
theorem Dev.regWrite_plain {d : Dev} {a : Nat} (hl : ¬ LockedWord a) (hg : ¬ GatheredWord a) (y : Party) (v : Word) :
    d.regWrite y a v = d.writePlain y a v := by
  rw [Dev.regWrite, if_neg (fun h => hl ((isLocked_iff d hg).1 h)), gatherBase_eq_none hg]

/-- A locked word's new value stands exactly where the configuration with it passes the checks. -/
theorem Dev.lkWrite_of_lkSet {d e : Dev} {a v : Nat} (h : d.lkSet a v = some e) :
    d.lkWrite a v = if e.configOk a then e else d := by
  rw [Dev.lkWrite, Dev.lkTake, h, Option.filter_some]
  split <;> rfl

/-- R461: the violation's count saturates at 14 bits, and source 0 fires. -/
theorem Dev.lockViol_eq (d : Dev) :
    d.lockViol = { d with hn := { d.hn with lockViol := min 16383 (d.hn.lockViol + 1) } }.fire 0 := rfl

/-- The DEV region below DEV_WAKE_EN holds no writable word. -/
theorem Dev.writeDev_below {o : Nat} (h : o < 0x32) (d : Dev) (v : Word) : d.writeDev o v = d := by
  have hs : d.satDev o = d := by
    unfold Dev.satDev
    repeat rw [if_neg (by omega)]
  unfold Dev.writeDev
  rw [if_neg (by omega), if_neg (by omega), if_neg (by omega), hs, ite_self]

/-- The identification words, DEV_MODE and DEV_PWR, and the reserved ranges above the LOG region and around the lifeboat frame. -/
theorem Dev.writePlain_unwritable {a : Nat}
    (h : (0x1F0000 ≤ a ∧ a < 0x1F0032) ∨ (0x1F2800 ≤ a ∧ a < 0x1FFE00)) (d : Dev) (y : Party) (v : Word) :
    d.writePlain y a v = d := by
  unfold Dev.writePlain
  rcases h with ⟨hlo, hhi⟩ | ⟨hlo, hhi⟩
  · rw [if_pos (by omega), Dev.writeDev_below (by omega)]
  · repeat rw [if_neg (by omega)]

/-- R11: a saturating counter of the three blocks ignores every value but 0. -/
theorem Dev.writePlain_counter_nonzero {a : Nat} (ha : a = 0x1F0070 ∨ a = 0x1F0061 ∨ a = 0x1F0820) {v : Word}
    (hv : v ≠ 0#14) (d : Dev) (y : Party) : d.writePlain y a v = d := by
  rcases ha with rfl | rfl | rfl <;> simp [Dev.writePlain, Dev.writeDev, Dev.writeEcc, hv]

/-! The writable words of O20, each with what its plain write does. -/

theorem Dev.writePlain_lockViol_zero (d : Dev) (y : Party) :
    d.writePlain y 0x1F0070 0#14 = { d with hn := { d.hn with lockViol := 0 } } := rfl

theorem Dev.writePlain_gateRef_zero (d : Dev) (y : Party) :
    d.writePlain y 0x1F0061 0#14 = { d with pl := { d.pl with gateRef := 0 } } := rfl

theorem Dev.writePlain_corr_zero (d : Dev) (y : Party) :
    d.writePlain y 0x1F0820 0#14 = { d with ar := { d.ar with corr := 0 } } := rfl

theorem Dev.writePlain_wakeEn (d : Dev) (y : Party) (v : Word) :
    d.writePlain y 0x1F0032 v = { d with pw := { d.pw with wakeEnSh := v.toNat % 64 } } := rfl

/-- R424: the need flag of port A is port A's own. -/
theorem Dev.writePlain_needA (d : Dev) (y : Party) (v : Word) : d.writePlain y 0x1F2040 v
    = if y = .portA then { d with rg := { d.rg with needASh := v.toNat.testBit 0 } } else d := rfl

theorem Dev.writePlain_keep (d : Dev) (y : Party) (v : Word) : d.writePlain y 0x1F2401 v
    = if v.toNat % 4096 = 0 then d else { d with lb := { d.lb with keepSh := v.toNat % 4096 } } := rfl

end Sys2Proof.Machine

/-! ### REGISTER_WRITE (R11, R13, R461) -/

namespace Sys2Proof.Machine
open Sys2Proof

theorem exec_registerWrite_act (dt : Nat) (y : Party) (a : Addr) (v : Word) (s : State) :
    exec (.registerWrite dt y a v) s
      = s.act dt fun d => if d.partyActs y ∧ 0x1F0000 ≤ a.toNat then d.regWrite y a.toNat v else d := rfl

/-- A write that reaches the core does to the device what `Dev.regWrite` does. -/
theorem exec_registerWrite {s : State} {dt : Nat} {y : Party} (h : s.acts dt y) {a : Addr} (ha : 0x1F0000 ≤ a.toNat)
    {v : Word} {e : Dev} (hw : (s.after dt).regWrite y a.toNat v = e) :
    exec (.registerWrite dt y a v) s = .next (s.withDev e) := by
  obtain ⟨hpow, hacts⟩ := h
  rw [exec_registerWrite_act, State.act_powered hpow, if_pos ⟨hacts, ha⟩, hw]

/-- The write of a word that is neither locked nor part of a two-word value. -/
theorem exec_registerWrite_plain {s : State} {dt : Nat} {y : Party} (h : s.acts dt y) {a : Addr} (ha : 0x1F0000 ≤ a.toNat)
    (hl : ¬ LockedWord a.toNat) (hg : ¬ GatheredWord a.toNat) {v : Word} {e : Dev}
    (hw : (s.after dt).writePlain y a.toNat v = e) : exec (.registerWrite dt y a v) s = .next (s.withDev e) :=
  exec_registerWrite h ha ((Dev.regWrite_plain hl hg y v).trans hw)

/-- A port's write of a locked word only counts and fires (R461). -/
theorem exec_registerWrite_locked {s : State} {dt : Nat} {y : Party} (h : s.acts dt y) (hy : y ≠ .pilot) {a : Addr}
    (hl : LockedWord a.toNat) (hg : ¬ GatheredWord a.toNat) (v : Word) :
    exec (.registerWrite dt y a v) s = .next (s.withDev (s.after dt).lockViol) :=
  exec_registerWrite h (by omega) (Dev.regWrite_locked hl hg hy v)

/-- A write of a word without a writable field changes nothing. -/
theorem exec_registerWrite_unwritable {s : State} {dt : Nat} {y : Party} (h : s.acts dt y) {a : Addr}
    (ha : (0x1F0000 ≤ a.toNat ∧ a.toNat < 0x1F0032) ∨ (0x1F2800 ≤ a.toNat ∧ a.toNat < 0x1FFE00)) (v : Word) :
    exec (.registerWrite dt y a v) s = .next (s.withDev (s.after dt)) :=
  exec_registerWrite_plain h (by omega) (by omega) (by omega) (Dev.writePlain_unwritable ha _ y v)

/-- The device with another SCR_LIMIT. -/
def Dev.withLimit (d : Dev) (n : Nat) : Dev := { d with ar := { d.ar with limit := n } }

/-- The pilot's write of SCR_LIMIT, judged with the new limit in place. -/
theorem exec_registerWrite_limit {s : State} {dt : Nat} (h : s.acts dt .pilot) (v : Word) :
    exec (.registerWrite dt .pilot 0x1F0801#21 v) s = .next (s.withDev
      (if ((s.after dt).withLimit (v.toNat % 8192)).configOk 0x1F0801 then (s.after dt).withLimit (v.toNat % 8192)
        else s.after dt)) := by
  have hset : (s.after dt).lkSet 0x1F0801 v.toNat = some ((s.after dt).withLimit (v.toNat % 8192)) := rfl
  exact exec_registerWrite h (by decide)
    ((Dev.regWrite_pilot (by decide) (by decide) v).trans (Dev.lkWrite_of_lkSet hset))

/-- R97: a limit of 2,048 lies within the scrub capacity of the harbour timetable. -/
theorem scrubBad_harbour : scrubBad (harbourTt 6) 100000 2048 = false := by decide

/-- R13: under the harbour image a limit of 2,048 passes the check of reason 0x0092. -/
theorem Dev.configOk_limit_harbour {d : Dev} (hrun : d.cf.run = harbourTt 6) (hlen : d.ck.lenReg = 100000)
    (hslip : d.ck.slip = 0) : (d.withLimit 2048).configOk 0x1F0801 = true := by
  have hcheck : (d.withLimit 2048).configOk 0x1F0801 = !scrubBad d.cf.run (d.ck.lenReg - d.ck.slip) 2048 := rfl
  rw [hcheck, hrun, hlen, hslip, scrubBad_harbour]
  rfl

/-- Settles O20: each address is sorted into locked and plain words, and the word's own rule applies. -/
theorem registerWrites : Obligations.RegisterWrites := by
  intro s dt y a v hacts d
  have plain : ∀ {b : Addr} {w : Word} {e : Dev}, 0x1F0000 ≤ b.toNat → ¬ LockedWord b.toNat → ¬ GatheredWord b.toNat →
      d.writePlain y b.toNat w = e → exec (.registerWrite dt y b w) s = .next (s.withDev e) :=
    fun hb hl hg hw => exec_registerWrite_plain hacts hb hl hg hw
  refine ⟨fun hy ha => ?locked, ?limit, fun ha => ?unwritable,
    plain (by decide) (by decide) (by decide) (d.writePlain_lockViol_zero y),
    plain (by decide) (by decide) (by decide) (d.writePlain_gateRef_zero y),
    plain (by decide) (by decide) (by decide) (d.writePlain_corr_zero y), fun hv ha => ?nonzero,
    plain (by decide) (by decide) (by decide) (d.writePlain_wakeEn y v),
    plain (by decide) (by decide) (by decide) (d.writePlain_needA y v),
    plain (by decide) (by decide) (by decide) (d.writePlain_keep y v)⟩
  case locked =>
    obtain ⟨hl, hg⟩ : LockedWord a.toNat ∧ ¬ GatheredWord a.toNat := by
      rcases ha with rfl | rfl | ha | ha | ha
      · decide
      · decide
      all_goals constructor <;> omega
    rw [exec_registerWrite_locked hacts hy hl hg v, Dev.lockViol_eq]
  case limit =>
    rintro rfl e
    have hlimit := exec_registerWrite_limit hacts v
    refine ⟨hlimit, fun _ hrun hlen hslip hv => ?_⟩
    have hok : (d.withLimit (v.toNat % 8192)).configOk 0x1F0801 = true := by
      rw [hv]
      exact Dev.configOk_limit_harbour hrun hlen hslip
    rw [hlimit, if_pos hok]
    rfl
  case unwritable =>
    refine exec_registerWrite_unwritable hacts ?_ v
    rcases ha with rfl | rfl | ha | ha | ha
    · decide
    · decide
    all_goals omega
  case nonzero =>
    obtain ⟨hb, hl, hg, hc⟩ : 0x1F0000 ≤ a.toNat ∧ ¬ LockedWord a.toNat ∧ ¬ GatheredWord a.toNat
        ∧ (a.toNat = 0x1F0070 ∨ a.toNat = 0x1F0061 ∨ a.toNat = 0x1F0820) := by
      rcases ha with rfl | rfl | rfl <;> decide
    exact plain hb hl hg (Dev.writePlain_counter_nonzero hc hv d y)

end Sys2Proof.Machine

/-! ### Association lists and a change of one party -/

namespace Sys2Proof.Machine
open Sys2Proof

@[simp] theorem assoc_assocSet {β : Type} (l : List (Nat × β)) (k : Nat) (v : β) : assoc (assocSet l k v) k = some v := by
  simp [assoc, assocSet]

theorem Dev.party_modParty_of_ne {y z : Party} (h : z ≠ y) (d : Dev) (f : PartySt → PartySt) :
    (d.modParty y f).party z = d.party z := by
  cases y <;> cases z <;> simp [Dev.modParty, Dev.party] at h ⊢

/-- A change of one party changes the three parties' words alone. -/
theorem Dev.modParty_frame (d : Dev) (y : Party) (f : PartySt → PartySt) :
    d.modParty y f = { d with yA := (d.modParty y f).yA, yB := (d.modParty y f).yB, yP := (d.modParty y f).yP } := by
  cases y <;> rfl

theorem Dev.modParty_modParty (d : Dev) (y : Party) (f g : PartySt → PartySt) :
    (d.modParty y f).modParty y g = d.modParty y fun p => g (f p) := by
  cases y <;> rfl

end Sys2Proof.Machine

/-! ### SNAPSHOT_READ (R7, R8) -/

namespace Sys2Proof.Machine
open Sys2Proof

/-- Two spans of words share no address. -/
def spansApart (x y : Nat × Nat) : Prop := x.1 + x.2 ≤ y.1 ∨ y.1 + y.2 ≤ x.1

/-- Among spans that lie apart, an address within one of them finds that one. -/
theorem find?_span {a j n : Nat} (hj : j < n) : ∀ {l : List (Nat × Nat)}, l.Pairwise spansApart → (a, n) ∈ l →
    l.find? (fun m => decide (m.1 ≤ a + j) && decide (a + j < m.1 + m.2)) = some (a, n)
  | m :: l, hp, hmem => by
    obtain ⟨hapart, hp⟩ := List.pairwise_cons.1 hp
    rcases List.mem_cons.1 hmem with rfl | hmem
    · exact List.find?_cons_of_pos (by simp; omega)
    · have hm : m.1 + m.2 ≤ a ∨ a + n ≤ m.1 := hapart _ hmem
      rw [List.find?_cons_of_neg (by simp; omega)]
      exact find?_span hj hp hmem

/-- No word of the window belongs to two multi-word values. -/
theorem multiValues_apart : multiValues.Pairwise spansApart := by
  unfold spansApart
  decide

/-- R8: a read of word 0 captures the value and returns the current word. -/
theorem Dev.regRead_word0 {a n : Nat} (h : (a, n) ∈ multiValues) (hn : 0 < n) (d : Dev) (y : Party) :
    d.regRead y a = (d.snapshot y a n, d.regNow y a) := by
  have hfind := find?_span hn multiValues_apart h
  simp only [Nat.add_zero] at hfind
  simp only [Dev.regRead, hfind, if_true]

/-- R8: a read of a later word returns the word of the party's snapshot. -/
theorem Dev.regRead_later {a n j : Nat} (h : (a, n) ∈ multiValues) (h0 : 0 < j) (hj : j < n) {d : Dev} {y : Party}
    {ws : List Word} (hs : assoc (d.party y).snaps a = some ws) : (d.regRead y (a + j)).2 = ws.getD j 0#14 := by
  have hne : a + j ≠ a := by omega
  simp only [Dev.regRead, find?_span hj multiValues_apart h, if_neg hne, hs, Nat.add_sub_cancel_left]

/-- What a party has captured of a value after a snapshot: the words as they stood. -/
theorem Dev.snaps_snapshot (d : Dev) (y : Party) (a n : Nat) :
    assoc ((d.snapshot y a n).party y).snaps a = some ((List.range n).map fun i => d.regNow y (a + i)) := by
  simp only [Dev.snapshot, Dev.party_modParty, assoc_assocSet]

theorem multiValues_pos : ∀ m ∈ multiValues, 0 < m.2 := by decide

/-- What SNAPSHOT_READ leaves to its party: the snapshot, and the word as its answer. -/
def Dev.answered (d : Dev) (y : Party) (a n : Nat) : Dev :=
  (d.snapshot y a n).modParty y fun p => { p with back := d.regNow y a }

theorem exec_snapshotRead_act (dt : Nat) (y : Party) (a : Addr) (s : State) :
    exec (.snapshotRead dt y a) s = s.act dt fun d =>
      if d.partyActs y ∧ multiValues.any fun m => m.1 == a.toNat then
        (d.regRead y a.toNat).1.modParty y fun p => { p with back := (d.regRead y a.toNat).2 }
      else d := rfl

theorem exec_snapshotRead {s : State} {dt : Nat} {y : Party} (h : s.acts dt y) {a : Addr} {n : Nat}
    (hm : (a.toNat, n) ∈ multiValues) :
    exec (.snapshotRead dt y a) s = .next (s.withDev ((s.after dt).answered y a.toNat n)) := by
  obtain ⟨hpow, hacts⟩ := h
  have hany : (multiValues.any fun m => m.1 == a.toNat) = true := List.any_eq_true.2 ⟨_, hm, beq_self_eq_true _⟩
  rw [exec_snapshotRead_act, State.act_powered hpow, if_pos ⟨hacts, hany⟩,
    Dev.regRead_word0 hm (multiValues_pos _ hm), Dev.answered]

/-- Settles O21: the read's frame, and the later words out of the snapshot. -/
theorem snapshotReads : Obligations.SnapshotReads := by
  intro s dt y a n hacts hm d
  refine ⟨_, exec_snapshotRead hacts hm, rfl, ?back, fun z hz => ?others, ?frame, fun j h0 hj later hlater => ?later⟩
  case back => simp only [State.withDev_dev, Dev.answered, Dev.party_modParty]
  case others =>
    simp only [State.withDev_dev, Dev.answered, Dev.snapshot, Dev.party_modParty_of_ne hz]
    rfl
  case frame =>
    simp only [State.withDev_dev, Dev.answered, Dev.snapshot, Dev.modParty_modParty]
    exact Dev.modParty_frame _ _ _
  case later =>
    have hsnap : assoc (later.party y).snaps a.toNat = some ((List.range n).map fun i => d.regNow y (a.toNat + i)) := by
      rw [hlater]
      simp only [State.withDev_dev, Dev.answered, Dev.party_modParty]
      exact d.snaps_snapshot y a.toNat n
    rw [Dev.regRead_later hm h0 hj hsnap]
    simp [List.getD, hj, d]

end Sys2Proof.Machine

/-! ### Every command completes (R87) -/

namespace Sys2Proof.Machine
open Sys2Proof

/-- Every arm of `exec` is `State.act` or `State.always` of a function of the device: the next state takes the device
that function makes (`State.act_next`, `State.always_next`), and the equation with it holds by computation. -/
theorem exec_eq_next_withDev (c : Instr) (s : State) : ∃ d, exec c s = .next (s.withDev d) := by
  cases c with
  | _ => exact ⟨_, rfl⟩

theorem safe_of_front (c : Instr) (s : State) : Safe { s with pending := c :: s.pending } := by
  obtain ⟨d, hd⟩ := exec_eq_next_withDev c s
  exact ⟨s.withDev d, (step_of_front c s).trans hd⟩

theorem safe_of_empty {s : State} (h : s.pending = []) : Safe s := ⟨s, step_of_empty h⟩

theorem safe (s : State) : Safe s := by
  obtain ⟨pending, dev⟩ := s
  cases pending with
  | nil => exact safe_of_empty rfl
  | cons c cs => exact safe_of_front c ⟨cs, dev⟩

/-- Settles O2: a command only replaces the device of its state, and a step runs one command or none. -/
theorem everyCommandCompletes : Obligations.EveryCommandCompletes := by
  refine ⟨fun c s => ?_, safe⟩
  obtain ⟨d, hd⟩ := exec_eq_next_withDev c s
  exact ⟨s.withDev d, hd, s.withDev_pending d⟩

end Sys2Proof.Machine

/-! ### Commands that the pilot has taken, and how they end (R276, R279) -/

namespace Sys2Proof.Machine
open Sys2Proof

/-- A command that the pilot has taken runs its action on the device that time has brought. -/
theorem State.act_onCommand {s : State} {dt : Nat} {p : Port} {op : Nat} {c : Cmd} (h : s.took dt p op c)
    (f : Cmd → Dev → Dev) : (s.act dt fun d => d.onCommand p op f) = .next (s.withDev (f c (s.after dt))) := by
  obtain ⟨hpow, hruns, hcmd, hop, hphase⟩ := h
  have hacc : (s.after dt).accepted p op = some c := by simp [Dev.accepted, hcmd, hop, hphase]
  rw [State.act_powered hpow]
  simp only [Dev.onCommand, hacc, hruns, if_true]

@[simp] theorem Dev.cmd_setCmd (d : Dev) (p : Port) (c : Option Cmd) : (d.setCmd p c).cmd p = c := by cases p <;> rfl

theorem Dev.setCmd_frame (d : Dev) (p : Port) (c : Option Cmd) : ∃ y, d.setCmd p c = { d with pl := y } := by
  cases p <;> exact ⟨_, rfl⟩

/-- A return code changes the mailboxes and the pilot alone. -/
theorem Dev.finish_frame (d : Dev) (p : Port) (code : Nat) : ∃ x y, d.finish p code = { d with cm := x, pl := y } := by
  unfold Dev.finish
  obtain ⟨y, hy⟩ := Dev.setCmd_frame ((d.modChan (returnChan p) fun c =>
    { c with reserved := c.reserved - ((d.cmd p).map Cmd.reserved |>.getD 0) }).putAck (pilotChan p) (wd code)) p none
  exact ⟨_, y, hy⟩

@[simp] theorem Dev.finish_cf (d : Dev) (p : Port) (code : Nat) : (d.finish p code).cf = d.cf := by
  obtain ⟨x, y, h⟩ := d.finish_frame p code
  rw [h]

/-- With its return code a command is over. -/
@[simp] theorem Dev.cmd_finish (d : Dev) (p : Port) (code : Nat) : (d.finish p code).cmd p = none :=
  Dev.cmd_setCmd _ p none

@[simp] theorem Dev.mbxTake_cf (d : Dev) (k : Nat) : (d.mbxTake k).cf = d.cf := by
  unfold Dev.mbxTake
  simp only
  split
  · rfl
  · split
    · obtain ⟨x, w, h⟩ := Dev.tellParty_frame _ (chanSender k) 6
      rw [h]
      rfl
    · rfl

end Sys2Proof.Machine

/-! ### The image update: BEGIN and the erase (R118, R119, R121) -/

namespace Sys2Proof.Machine
open Sys2Proof

theorem Dev.updateOpen_iff (d : Dev) (p : Port) : d.updateOpen p = true ↔ d.cf.updState = 1 ∧ d.cf.updOwner = p := by
  simp [Dev.updateOpen]

@[simp] theorem Dev.endUpdateCmd_cf (d : Dev) (p : Port) (code : Nat) : (d.endUpdateCmd p code).cf = d.cf := by
  unfold Dev.endUpdateCmd
  split
  · split
    · rw [Dev.finish_cf]
      split
      · exact d.mbxTake_cf _
      · rfl
    · rfl
  · rfl

/-- The update fields after an update is abandoned (R122). -/
def Cfg.closed (cf : Cfg) : Cfg := { cf with updState := 3, updErasing := false, updCommitting := false }

/-- The update fields after BEGIN opens an update of a port on a slot (R118, R119). -/
def Cfg.opened (cf : Cfg) (p : Port) (slot : CopyId) : Cfg :=
  { cf with updState := 1, updTarget := copyCode slot, updOwner := p, updErasing := true, updSent := 0, updHead := [],
            updCommitting := false, flash := .erase slot }

/-- The device after BEGIN has abandoned the open update of the other port, where it had one. -/
def Dev.otherAbandoned (d : Dev) (p : Port) : Dev :=
  if d.updateOpen p.other = true then ({ d with cf := d.cf.closed } : Dev).endUpdateCmd p.other 0x0101 else d

theorem Dev.closeUpdate_of_open {d : Dev} {p : Port} (h : d.updateOpen p = true) :
    d.closeUpdate = { d with cf := d.cf.closed } := if_pos ((d.updateOpen_iff p).1 h).1

/-- Abandoning the other port's update neither chooses another slot nor leaves a field that opening does not set. -/
theorem Dev.opened_otherAbandoned (d : Dev) (p : Port) :
    (d.otherAbandoned p).cf.opened p (d.otherAbandoned p).updateTarget = d.cf.opened p d.updateTarget := by
  unfold Dev.updateTarget Dev.otherAbandoned
  split
  · rw [Dev.endUpdateCmd_cf]
    rfl
  · rfl

theorem Dev.updateBegin_noSfdp {d : Dev} (h : d.cf.sfdpOk = false) (p : Port) : d.updateBegin p = d.finish p 0x0105 := by
  simp only [Dev.updateBegin, h, Bool.not_false, if_true]

theorem Dev.updateBegin_exhausted {d : Dev} (h : d.cf.sfdpOk = true) (hseq : d.cf.copySel ≠ 2 ∧ d.cf.seq = 0xFFFFFFFE)
    (p : Port) : d.updateBegin p = d.finish p 0x0104 := by
  rw [Dev.updateBegin, if_neg (by simp [h]), if_pos hseq]

theorem Dev.updateBegin_opens {d : Dev} (h : d.cf.sfdpOk = true) (hseq : ¬ (d.cf.copySel ≠ 2 ∧ d.cf.seq = 0xFFFFFFFE))
    (p : Port) : d.updateBegin p = ({ d.otherAbandoned p with cf := d.cf.opened p d.updateTarget } : Dev).setStarted p := by
  have he : (if d.updateOpen p.other then d.closeUpdate.endUpdateCmd p.other 0x0101 else d) = d.otherAbandoned p := by
    unfold Dev.otherAbandoned
    split
    · next ho => rw [Dev.closeUpdate_of_open ho]
    · rfl
  rw [Dev.updateBegin, if_neg (by simp [h]), if_neg hseq, ← Dev.opened_otherAbandoned]
  simp only [he]
  rfl

theorem Dev.eraseDone_erasing {d : Dev} (he : d.cf.updErasing = true) (hs : d.cf.updState = 1) (ok : Bool) :
    d.eraseDone ok = ({ d with cf := { d.cf with updErasing := false, updState := if ok then 1 else 3 } } : Dev).finishIf
      d.cf.updOwner 0x0030 (if ok then 0 else 0x0105) :=
  if_pos (by simp [he, hs])

theorem Dev.eraseDone_idle {d : Dev} (h : d.cf.updErasing = false ∨ d.cf.updState ≠ 1) (ok : Bool) :
    d.eraseDone ok = d :=
  if_neg (by rcases h with h | h <;> simp [h])

end Sys2Proof.Machine

/-! ### The image update: DATA (R119, R120, R121) -/

namespace Sys2Proof.Machine
open Sys2Proof

/-- The bytes of a DATA command. -/
def Cmd.sent (c : Cmd) : List Byte := (unpackGroups 3 (c.words.drop 4)).take (c.word 3)

/-- The offset of a DATA command. -/
def Cmd.offset (c : Cmd) : Nat := c.value 1 2 % 524288

/-- Bytes at the offsets from `off` on. -/
def placedAt (off : Nat) (bs : List Byte) : List (Nat × Byte) :=
  List.zipWith (fun i b => (off + i, b)) (List.range bs.length) bs

/-- What a programming holds back: the bytes of the magic, once the header has been sent. -/
def programmed (head : List Byte) (placed : List (Nat × Byte)) : List (Nat × Byte) :=
  if head.length < 16 then placed else placed.filter fun b => !heldBack head b.1

/-- Each byte stands at its own offset. -/
theorem mem_placedAt (off : Nat) (bs : List Byte) (o : Nat) (b : Byte) :
    (o, b) ∈ placedAt off bs ↔ off ≤ o ∧ bs[o - off]? = some b := by
  simp only [placedAt, List.mem_iff_getElem?, List.getElem?_zipWith_eq_some, Prod.mk.injEq]
  constructor
  · rintro ⟨i, j, y, hj, hy, rfl, rfl⟩
    obtain rfl : i = j := by
      obtain ⟨hlt, rfl⟩ := List.getElem?_eq_some_iff.1 hj
      exact (List.getElem_range hlt).symm
    exact ⟨by omega, by rwa [Nat.add_sub_cancel_left]⟩
  · rintro ⟨ho, hb⟩
    have hlt : o - off < bs.length := (List.getElem?_eq_some_iff.1 hb).1
    exact ⟨o - off, o - off, b, by simp [hlt], hb, by omega, rfl⟩

theorem heldBack_eq_false_iff (head : List Byte) (o : Nat) :
    heldBack head o = false ↔ o + 4 < hdrLen head ∨ hdrLen head ≤ o := by
  simp only [heldBack, Bool.and_eq_false_iff, decide_eq_false_iff_not]
  omega

/-- A byte is programmed unless the header sent so far makes it one of the magic's. -/
theorem mem_programmed (head : List Byte) (placed : List (Nat × Byte)) (o : Nat) (b : Byte) :
    (o, b) ∈ programmed head placed
      ↔ (o, b) ∈ placed ∧ (head.length < 16 ∨ o + 4 < hdrLen head ∨ hdrLen head ≤ o) := by
  unfold programmed
  split
  · next h => simp [h]
  · next h => simp [h, heldBack_eq_false_iff]

/-- The update fields after a programming that the flash has reported. -/
def Cfg.afterData (cf : Cfg) (c : Cmd) (target : CopyId) (ok : Bool) : Cfg :=
  let head := headWith cf.updHead c.sent
  let cf := { cf with flash := .program target (programmed head (placedAt c.offset c.sent)) }
  if ok then { cf with updSent := c.offset + c.word 3, updHead := head } else cf

theorem Cfg.afterData_flash (cf : Cfg) (c : Cmd) (target : CopyId) (ok : Bool) : (cf.afterData c target ok).flash
    = .program target (programmed (headWith cf.updHead c.sent) (placedAt c.offset c.sent)) := by
  cases ok <;> rfl

theorem Cfg.afterData_updSent (cf : Cfg) (c : Cmd) (target : CopyId) (ok : Bool) :
    (cf.afterData c target ok).updSent = if ok then c.offset + c.word 3 else cf.updSent := by
  cases ok <;> rfl

section
variable {d : Dev} {p : Port} {c : Cmd}

theorem Dev.updateData_closed (h : d.updateOpen p = false) (ok : Bool) : d.updateData p c ok = d.finish p 0x0101 :=
  if_pos (by simp [h])

theorem Dev.updateData_misplaced (h : d.updateOpen p = true) (hw : c.offset ≠ d.cf.updSent ∨ c.word 3 = 0 ∨ 21 < c.word 3)
    (ok : Bool) : d.updateData p c ok = d.finish p 0x0102 :=
  (if_neg (by simp [h])).trans (if_pos hw)

/-- DATA that continues what has been sent, with a length that its message may carry, passes both codes before the end's. -/
theorem Dev.updateData_continues (h : d.updateOpen p = true) (hoff : c.offset = d.cf.updSent) (h1 : 1 ≤ c.word 3)
    (h21 : c.word 3 ≤ 21) (ok : Bool) : d.updateData p c ok =
      if 524288 < c.offset + c.word 3 then d.finish p 0x0103
      else ({ d with cf := d.cf.afterData c d.targetCopy ok } : Dev).finish p (if ok then 0 else 0x0105) := by
  have hplaced : ¬ (c.offset ≠ d.cf.updSent ∨ c.word 3 = 0 ∨ 21 < c.word 3) := by omega
  refine (if_neg (by simp [h])).trans ((if_neg hplaced).trans ?_)
  cases ok <;> rfl

end

end Sys2Proof.Machine

/-! ### The image update: COMMIT (R118, R119, R121) -/

namespace Sys2Proof.Machine
open Sys2Proof

theorem Dev.updateCommit_closed {d : Dev} {p : Port} (h : d.updateOpen p = false) :
    d.updateCommit p = d.finish p 0x0101 :=
  if_pos (by simp [h])

theorem Dev.updateCommit_open {d : Dev} {p : Port} (h : d.updateOpen p = true) :
    d.updateCommit p = ({ d with cf := { d.cf with updCommitting := true } } : Dev).setStarted p :=
  if_neg (by simp [h])

/-- COMMIT of a port ends with the update fields and the code that it leaves. -/
def Dev.updateEnds (d : Dev) (cf : Cfg) (code : Nat) : Dev := ({ d with cf := cf } : Dev).finishIf cf.updOwner 0x0032 code

/-- The readback's checks in their order: the copy's, the sequence, the flash's answer to the magic. -/
theorem Dev.commitDone_checks {d : Dev} (hc : d.cf.updCommitting = true) (hs : d.cf.updState = 1) (back : List Byte)
    (ok : Bool) :
    let shut := { d.cf with updCommitting := false, updState := 3 }
    d.commitDone back ok =
      if copyReason back true ≠ 0 then d.updateEnds { shut with rsnU := copyReason back true } 0x0106
      else if d.seqFits (hdrSeq back) = false then d.updateEnds shut 0x0104
      else if ok = false then d.updateEnds { shut with flash := .magic d.targetCopy } 0x0105
      else d.updateEnds { shut with flash := .magic d.targetCopy, updState := 2 } 0 := by
  have hrun : (d.cf.updCommitting && d.cf.updState == 1) = true := by simp [hc, hs]
  refine (if_pos hrun).trans
    (ite_congr rfl (fun _ => rfl) fun _ => ite_congr (Bool.not_eq_true' _) (fun _ => rfl) fun _ => ?_)
  cases ok <;> rfl

theorem Dev.commitDone_idle {d : Dev} (h : d.cf.updCommitting = false ∨ d.cf.updState ≠ 1) (back : List Byte) (ok : Bool) :
    d.commitDone back ok = d :=
  if_neg (by rcases h with h | h <;> simp [h])

end Sys2Proof.Machine

/-! ### The five commands of an update -/

namespace Sys2Proof.Machine
open Sys2Proof

section
variable {s : State} {dt : Nat} {p : Port} {c : Cmd}

theorem exec_configUpdateBegin (h : s.took dt p 0x0030 c) {e : Dev} (he : (s.after dt).updateBegin p = e) :
    exec (.configUpdateBegin dt p) s = .next (s.withDev e) :=
  he ▸ State.act_onCommand h fun _ d => d.updateBegin p

theorem exec_flashEraseComplete (h : s.dev.pw.powered = true) {ok : Bool} {e : Dev} (he : (s.after dt).eraseDone ok = e) :
    exec (.flashEraseComplete dt ok) s = .next (s.withDev e) :=
  he ▸ State.act_powered h dt fun d => d.eraseDone ok

theorem exec_configUpdateData (h : s.took dt p 0x0031 c) {ok : Bool} {e : Dev} (he : (s.after dt).updateData p c ok = e) :
    exec (.configUpdateData dt p ok) s = .next (s.withDev e) :=
  he ▸ State.act_onCommand h fun c d => d.updateData p c ok

theorem exec_configUpdateCommit (h : s.took dt p 0x0032 c) {e : Dev} (he : (s.after dt).updateCommit p = e) :
    exec (.configUpdateCommit dt p) s = .next (s.withDev e) :=
  he ▸ State.act_onCommand h fun _ d => d.updateCommit p

theorem exec_updateCommitComplete (h : s.dev.pw.powered = true) {back : List Byte} {ok : Bool} {e : Dev}
    (he : (s.after dt).commitDone back ok = e) : exec (.updateCommitComplete dt back ok) s = .next (s.withDev e) :=
  he ▸ State.act_powered h dt fun d => d.commitDone back ok

end

/-- Settles O36: each command runs its action on the device that time has brought, and the action's lemma says what it leaves in
each case; what a programming names comes from `mem_programmed` and `mem_placedAt`. -/
theorem configUpdate : Obligations.ConfigUpdate := by
  intro s dt p c ok back d cf
  refine ⟨fun htook => ⟨fun hsfdp => ?noSfdp, fun hsfdp hsel hseq => ?exhausted, fun hsfdp hseq => ?opens⟩,
    fun hpow he hs => exec_flashEraseComplete hpow (Dev.eraseDone_erasing he hs ok),
    fun hpow h => exec_flashEraseComplete hpow (Dev.eraseDone_idle h ok),
    fun htook => ⟨fun hopen => ?closed, fun hopen hw => ?misplaced, fun hopen hoff h1 h21 hend => ?pastEnd,
      fun hopen hoff h1 h21 hend => ?programs⟩,
    fun htook => ⟨fun hopen => exec_configUpdateCommit htook (Dev.updateCommit_closed hopen),
      fun hopen => exec_configUpdateCommit htook (Dev.updateCommit_open hopen)⟩,
    fun hpow hc hs => ?readback, fun hpow h => exec_updateCommitComplete hpow (Dev.commitDone_idle h back ok)⟩
  case noSfdp => exact exec_configUpdateBegin htook (Dev.updateBegin_noSfdp hsfdp p)
  case exhausted => exact exec_configUpdateBegin htook (Dev.updateBegin_exhausted hsfdp ⟨hsel, hseq⟩ p)
  case opens =>
    have hnot : ¬ (cf.copySel ≠ 2 ∧ cf.seq = 0xFFFFFFFE) := fun ⟨hsel, hmax⟩ => hseq.elim hsel (· hmax)
    exact exec_configUpdateBegin htook (Dev.updateBegin_opens hsfdp hnot p)
  case closed => exact exec_configUpdateData htook (Dev.updateData_closed hopen ok)
  case misplaced => exact exec_configUpdateData htook (Dev.updateData_misplaced hopen hw ok)
  case pastEnd => exact exec_configUpdateData htook ((Dev.updateData_continues hopen hoff h1 h21 ok).trans (if_pos hend))
  case programs =>
    have hexec := exec_configUpdateData htook
      ((Dev.updateData_continues hopen hoff h1 h21 ok).trans (if_neg (Nat.not_lt.2 hend)))
    refine ⟨_, programmed (headWith cf.updHead c.sent) (placedAt c.offset c.sent), hexec, rfl, ?flash,
      fun o b => ?bytes, Dev.cmd_finish _ p _, ?sent, ?frame⟩
    case flash => rw [State.withDev_dev, Dev.finish_cf, Cfg.afterData_flash]
    case bytes => rw [mem_programmed, mem_placedAt, and_assoc]; rfl
    case sent => rw [State.withDev_dev, Dev.finish_cf, Cfg.afterData_updSent]; rfl
    case frame =>
      obtain ⟨cm, pl, hfin⟩ := Dev.finish_frame ({ d with cf := cf.afterData c d.targetCopy ok } : Dev) p
        (if ok then 0 else 0x0105)
      rw [State.withDev_dev, hfin]
  case readback =>
    rw [exec_updateCommitComplete hpow (Dev.commitDone_checks hc hs back ok)]
    simp only [apply_ite s.withDev]
    rfl

end Sys2Proof.Machine

/-! ### Commands of a party and of a timetabled mode -/

namespace Sys2Proof.Machine
open Sys2Proof

/-- A party whose access reaches the core has its command's effect. -/
theorem State.act_party {s : State} {dt : Nat} {y : Party} (h : s.acts dt y) (f : Dev → Dev) :
    (s.act dt fun d => if d.partyActs y then f d else d) = .next (s.withDev (f (s.after dt))) := by
  obtain ⟨hpow, hacts⟩ := h
  rw [State.act_powered hpow, if_pos hacts]

/-- In a mode with an image timetable a command of the timetable has its effect. -/
theorem State.act_timed {s : State} {dt : Nat} (h : s.timed dt) (f : Dev → Dev) :
    (s.act dt fun d => if d.pw.mode.timetabled then f d else d) = .next (s.withDev (f (s.after dt))) := by
  obtain ⟨hpow, htimed⟩ := h
  rw [State.act_powered hpow, if_pos htimed]

end Sys2Proof.Machine

/-! ### Raw operations (R217, R218) -/

namespace Sys2Proof.Machine
open Sys2Proof

section
variable {d : Dev}

theorem Dev.rawStart_disabled (h : d.ar.rawEn = false) (op : RawOp) :
    d.rawStart op = { d with ar := { d.ar with rawResult := 2 } } :=
  if_pos (by simp [h])

theorem Dev.rawStart_disallowed (h : d.ar.rawEn = true) (ha : d.rawAllowed d.ar.rawAddr = false) (op : RawOp) :
    d.rawStart op = { d with ar := { d.ar with rawResult := 1 } } :=
  (if_neg (by simp [h])).trans (if_pos (by simp [ha]))

theorem Dev.rawStart_waits (h : d.ar.rawEn = true) (ha : d.rawAllowed d.ar.rawAddr = true) (op : RawOp) :
    d.rawStart op = { d with ar := { d.ar with
      rawOp := some (op, d.ar.rawAddr, rawCode (wd d.ar.rawData) d.ar.rawChk), rawResult := 0 } } :=
  (if_neg (by simp [h])).trans (if_neg (by simp [ha]))

/-- The device after its waiting raw operation has been taken up. -/
def Dev.rawTaken (d : Dev) : Dev := { d with ar := { d.ar with rawOp := none } }

/-- The device after a raw operation has stored a code word, with the data of its unit. -/
def Dev.rawStore (d : Dev) (a : Nat) (c : Code) (w : Word) : Dev := ((d.rawSet a c).touchScrub a).emitWrite a w

/-- Beside the word, a raw store changes the scrubber's marks and the logbook alone. -/
theorem Dev.rawStore_effect (d : Dev) (a : Nat) (c : Code) (w : Word) : ∃ q x, d.rawStore a c w =
    { d.rawSet a c with ar := { (d.rawSet a c).ar with banks := q }, lb := x } := by
  obtain ⟨x, hx⟩ := Dev.emitWrite_frame ((d.rawSet a c).touchScrub a) a w
  exact ⟨_, x, hx⟩

theorem Dev.rawGet_rawStore (d : Dev) (a : Nat) (c : Code) (w : Word) (b : Nat) :
    (d.rawStore a c w).rawGet b = (d.rawSet a c).rawGet b := by
  obtain ⟨q, x, h⟩ := d.rawStore_effect a c w
  rw [h]
  exact Dev.rawGet_congr rfl rfl b

/-- A raw store neither starts nor ends a raw operation. -/
theorem Dev.rawStore_rawOp (d : Dev) (a : Nat) (c : Code) (w : Word) : (d.rawStore a c w).ar.rawOp = d.ar.rawOp := by
  obtain ⟨q, x, h⟩ := d.rawStore_effect a c w
  obtain ⟨m, t, hs⟩ := d.rawSet_frame a c
  rw [h, hs]

/-- R217: what a raw operation leaves in a live bank. -/
theorem Dev.rawRun_live {a : Nat} (h : d.bankDead a = false) (op : RawOp) (c : Code) : d.rawRun op a c =
    match op with
    | .read => { d.rawTaken with ar := { d.rawTaken.ar with
        rawData := (codeData (d.rawGet a)).toNat, rawChk := codeCheck (d.rawGet a) } }
    | .write => d.rawTaken.rawStore a c (codeData c)
    | .check => d.rawTaken.rawStore a (rawCode (codeData (d.rawGet a)) (codeCheck c)) (codeData (d.rawGet a)) := by
  have hlive : ¬ d.rawTaken.bankDead a = true := by simpa [Dev.bankDead, Dev.rawTaken] using h
  exact (if_neg hlive).trans (by cases op <;> rfl)

/-- R204: a raw operation that waits on a word of the bank takes the slot before all else, unless the stripe under test holds its
word. -/
theorem Dev.scrubSlot_raw {op : RawOp} {a : Nat} {c : Code} (h : d.ar.rawOp = some (op, a, c))
    (hs : d.inStripe a = false) (fault : Code) : d.scrubSlot (bankOf a) fault = d.rawRun op a c := by
  simp only [Dev.scrubSlot, h, Option.filter_some, hs, decide_true, Bool.not_false, Bool.and_self, if_true]

end

/-- After a raw operation in a live bank none waits. -/
theorem Dev.rawRun_rawOp {d : Dev} {a : Nat} (h : d.bankDead a = false) (op : RawOp) (c : Code) :
    (d.rawRun op a c).ar.rawOp = none := by
  rw [Dev.rawRun_live h]
  cases op with
  | read => rfl
  | write | check => exact Dev.rawStore_rawOp _ _ _ _

/-- A raw operation leaves every word but its own. -/
theorem Dev.rawGet_rawRun_other {d : Dev} (hm : Memory.wf d.ar.mem = true) {a b : Nat} (h : d.bankDead a = false)
    (hb : b ≠ a) (op : RawOp) (c : Code) : (d.rawRun op a c).rawGet b = d.rawGet b := by
  rw [Dev.rawRun_live h]
  cases op with
  | read => rfl
  | write | check => exact (Dev.rawGet_rawStore _ _ _ _ _).trans (Dev.rawGet_rawSet_other (d := d.rawTaken) hm hb _)

/-- R217: what a raw operation in a live bank makes of its own word and of the data registers. -/
theorem Dev.rawRun_word {d : Dev} (hm : Memory.wf d.ar.mem = true) {a : Nat} (h : d.bankDead a = false) (op : RawOp)
    (c : Code) : match op with
      | .read => (d.rawRun op a c).rawGet a = d.rawGet a ∧ (d.rawRun op a c).ar.rawData = (codeData (d.rawGet a)).toNat
          ∧ (d.rawRun op a c).ar.rawChk = codeCheck (d.rawGet a)
      | .write => (d.rawRun op a c).rawGet a = c
      | .check => (d.rawRun op a c).rawGet a = rawCode (codeData (d.rawGet a)) (codeCheck c) := by
  rw [Dev.rawRun_live h]
  cases op with
  | read => exact ⟨rfl, rfl, rfl⟩
  | write | check => exact (Dev.rawGet_rawStore _ _ _ _ _).trans (Dev.rawGet_rawSet_same (d := d.rawTaken) hm a _)

end Sys2Proof.Machine

/-! ### The error log, the scrub rate and raw operations as commands (R202, R204, R213, R217) -/

namespace Sys2Proof.Machine
open Sys2Proof

/-- A raw command that reaches the core is what `Dev.rawStart` makes of its operation. -/
theorem exec_raw {s : State} {dt : Nat} {y : Party} (h : s.acts dt y) {c : Instr} {op : RawOp}
    (hc : (c = .rawRead dt y ∧ op = .read) ∨ (c = .rawWrite dt y ∧ op = .write) ∨ (c = .rawCheckWrite dt y ∧ op = .check)) :
    exec c s = .next (s.withDev ((s.after dt).rawStart op)) := by
  rcases hc with ⟨rfl, rfl⟩ | ⟨rfl, rfl⟩ | ⟨rfl, rfl⟩ <;> exact State.act_party h fun d => d.rawStart _

theorem exec_scrubSlot {s : State} {dt : Nat} (h : s.timed dt) (b : Fin 4) (fault : Code) :
    exec (.scrubSlot dt b fault) s = .next (s.withDev ((s.after dt).scrubTurn b fault)) :=
  State.act_timed h fun d => d.scrubTurn b fault

/-- The scrubber's slot of a bank whose word a raw operation waits on runs it, with the slot taken. -/
theorem Dev.scrubTurn_raw {d : Dev} {op : RawOp} {a : Nat} {c : Code} (hown : d.mayUse 6 (bankOf a) = true)
    (h : d.ar.rawOp = some (op, a, c)) (hs : d.inStripe a = false) (fault : Code) :
    d.scrubTurn (bankOf a) fault = (d.useBank (bankOf a)).rawRun op a c :=
  (if_pos hown).trans (Dev.scrubSlot_raw (d := d.useBank (bankOf a)) h hs fault)

/-- Settles O23: the commands by their cases, and a raw operation's slot by `Dev.rawRun_live`. -/
theorem eccAndRawOperations : Obligations.EccAndRawOperations := by
  refine ⟨?commands, ?slot⟩
  case commands =>
    intro s dt y v hacts d ar
    refine ⟨State.act_party hacts fun d => d.logClear v, State.act_party hacts fun d => d.rateWrite v,
      State.act_party hacts fun d => d.testWrite v, fun c op hc => ⟨fun hen => ?_, fun hen ha => ?_, fun hen ha => ?_⟩⟩
    · rw [exec_raw hacts hc, Dev.rawStart_disabled hen]
    · rw [exec_raw hacts hc, Dev.rawStart_disallowed hen ha]
    · rw [exec_raw hacts hc, Dev.rawStart_waits hen ha]
  case slot =>
    intro s dt b op a code fault htimed d hm hown hop hbank hs hlive
    have hb : bankOf a = b := hbank
    have hexec := exec_scrubSlot htimed b fault
    rw [← hb] at hown
    rw [← hb, Dev.scrubTurn_raw hown hop hs] at hexec
    have hmem : Memory.wf (d.useBank (bankOf a)).ar.mem = true := hm
    have hused : (d.useBank (bankOf a)).bankDead a = false := hlive
    exact ⟨_, hexec, rfl, Dev.rawRun_rawOp hused op code, fun x hx => Dev.rawGet_rawRun_other hmem hused hx op code,
      Dev.rawRun_word hmem hused op code⟩

end Sys2Proof.Machine

/-! ### Touches (R178, R179, R182) -/

namespace Sys2Proof.Machine
open Sys2Proof

/-- The two states of a port differ in its touches, their count and the codes of its driven words at most. -/
def PortSt.OnlyTouched (x y : PortSt) : Prop := ∃ n t v, y = { x with coll := n, touches := t, driven := v }

theorem PortSt.OnlyTouched.refl (x : PortSt) : x.OnlyTouched x := ⟨x.coll, x.touches, x.driven, rfl⟩

theorem PortSt.OnlyTouched.trans {x y z : PortSt} (h : x.OnlyTouched y) (k : y.OnlyTouched z) : x.OnlyTouched z := by
  obtain ⟨_, _, _, rfl⟩ := h
  obtain ⟨_, _, _, rfl⟩ := k
  exact ⟨_, _, _, rfl⟩

/-- The two devices differ in what their ports' touches change at most, and in the events. -/
def Dev.OnlyTouched (d e : Dev) : Prop :=
  (∀ p, (d.port p).OnlyTouched (e.port p)) ∧ ∃ a b x, e = { d with pa := a, pb := b, ev := x }

theorem Dev.OnlyTouched.refl (d : Dev) : d.OnlyTouched d :=
  ⟨fun _ => .refl _, d.pa, d.pb, d.ev, rfl⟩

theorem Dev.OnlyTouched.trans {d e f : Dev} (h : d.OnlyTouched e) (k : e.OnlyTouched f) : d.OnlyTouched f := by
  obtain ⟨hp, _, _, _, rfl⟩ := h
  obtain ⟨kp, _, _, _, rfl⟩ := k
  exact ⟨fun p => (hp p).trans (kp p), _, _, _, rfl⟩

theorem Dev.OnlyTouched.rawGet {d e : Dev} (h : d.OnlyTouched e) (a : Nat) : e.rawGet a = d.rawGet a := by
  obtain ⟨_, _, _, _, rfl⟩ := h
  rfl

theorem Dev.modPort_touched (d : Dev) (p : Port) {f : PortSt → PortSt}
    (hf : ∀ x : PortSt, x.OnlyTouched (f x)) : d.OnlyTouched (d.modPort p f) := by
  cases p with
  | a => exact ⟨fun q => by cases q with | a => exact hf _ | b => exact .refl _, _, d.pb, d.ev, rfl⟩
  | b => exact ⟨fun q => by cases q with | a => exact .refl _ | b => exact hf _, d.pa, _, d.ev, rfl⟩

theorem Dev.fire_touched (d : Dev) (n : Nat) : d.OnlyTouched (d.fire n) := by
  obtain ⟨x, r, h⟩ := d.fire_frame n
  rw [h]
  exact ⟨fun p => by cases p <;> exact .refl _, d.pa, d.pb, _, rfl⟩

theorem Dev.modTouch_frame (d : Dev) (p : Port) (t : Touch) (f : Touch → Touch) : d.OnlyTouched (d.modTouch p t f) :=
  d.modPort_touched p fun x => ⟨x.coll, _, x.driven, rfl⟩

theorem Dev.hitTouch_frame (d : Dev) (p : Port) (t : Touch) : d.OnlyTouched (d.hitTouch p t) := by
  unfold Dev.hitTouch
  split
  · exact .refl d
  · have hcount : d.OnlyTouched (d.countColl p) :=
      (d.modPort_touched p fun x => ⟨_, x.touches, x.driven, rfl⟩).trans (Dev.fire_touched _ _)
    exact hcount.trans (Dev.modTouch_frame _ _ _ _)

theorem Dev.countTouch_frame (d : Dev) (p : Port) (t : Touch) : d.OnlyTouched (d.countTouch p t) := by
  unfold Dev.countTouch
  simp only
  split
  · exact .refl d
  · refine (List.foldlRecOn _ _ (motive := d.OnlyTouched) (.refl d) fun e he u _ => ?_).trans (Dev.hitTouch_frame _ _ _)
    exact he.trans (e.hitTouch_frame _ _)

theorem Dev.ageTouches_frame (d : Dev) : d.OnlyTouched d.ageTouches := by
  have hnear : ∀ x : PortSt, x.OnlyTouched { x with touches := x.touches.filter fun t => decide (d.now ≤ t.slot + 63) } :=
    fun x => ⟨x.coll, _, x.driven, rfl⟩
  unfold Dev.ageTouches
  split
  · exact (d.modPort_touched .a hnear).trans (Dev.modPort_touched _ .b hnear)
  · exact .refl d

theorem Dev.touch_frame (d : Dev) (p : Port) (a : Nat) (write real : Bool) : d.OnlyTouched (d.touch p a write real).1 := by
  have hmet : ∀ (e : Dev) (f : Driven → Driven),
      e.OnlyTouched (e.modPort p.other fun x => { x with driven := x.driven.map f }) :=
    fun e f => e.modPort_touched p.other fun x => ⟨x.coll, x.touches, _, rfl⟩
  have hadd : ∀ (e : Dev) (t : Touch), e.OnlyTouched (e.modPort p fun x => { x with touches := x.touches ++ [t] }) :=
    fun e t => e.modPort_touched p fun x => ⟨x.coll, _, x.driven, rfl⟩
  have hkept := d.ageTouches_frame
  unfold Dev.touch
  simp only
  split
  · exact ((hkept.trans (hmet _ _)).trans (hadd _ _)).trans (Dev.countTouch_frame _ _ _)
  · exact (hkept.trans (hmet _ _)).trans (hadd _ _)

end Sys2Proof.Machine

/-! ### Lone halves that commit (R196, R198) -/

namespace Sys2Proof.Machine
open Sys2Proof

/-- The two devices differ in what the verdict on a port's write may change at most: the port itself, the counts of refusals, the
events. -/
def Dev.OnlyJudged (p : Port) (d e : Dev) : Prop := e.port p.other = d.port p.other ∧ ∃ x y h k n v,
  e = { d with pa := x, pb := y, ar := { d.ar with holds := h }, kl := k, hn := n, ev := v }

theorem Dev.OnlyJudged.refl (p : Port) (d : Dev) : Dev.OnlyJudged p d d :=
  ⟨rfl, d.pa, d.pb, d.ar.holds, d.kl, d.hn, d.ev, rfl⟩

theorem Dev.OnlyJudged.trans {p : Port} {d e f : Dev} (h : d.OnlyJudged p e) (k : e.OnlyJudged p f) : d.OnlyJudged p f := by
  obtain ⟨hp, _, _, _, _, _, _, rfl⟩ := h
  obtain ⟨kp, _, _, _, _, _, _, rfl⟩ := k
  exact ⟨kp.trans hp, _, _, _, _, _, _, rfl⟩

theorem Dev.OnlyJudged.sameMemory {p : Port} {d e : Dev} (h : d.OnlyJudged p e) : e.sameMemory d := by
  obtain ⟨_, _, _, _, _, _, _, rfl⟩ := h
  exact fun _ => rfl

theorem Dev.modPort_judged (d : Dev) (p : Port) (f : PortSt → PortSt) : d.OnlyJudged p (d.modPort p f) :=
  ⟨d.port_modPort_other p f, by cases p <;> exact ⟨_, _, d.ar.holds, d.kl, d.hn, d.ev, rfl⟩⟩

/-- A judgement does not turn on the ports. -/
theorem Dev.judge_modPort (d : Dev) (q : Port) (f : PortSt → PortSt) (p : Port) (a : Nat) (lone : Bool) :
    (d.modPort q f).judge p a lone = d.judge p a lone := by
  cases q <;> rfl

/-- Two changes that bring a port to one state are one. -/
theorem Dev.modPort_congr {d : Dev} {p : Port} {f g : PortSt → PortSt} (h : f (d.port p) = g (d.port p)) :
    d.modPort p f = d.modPort p g := by
  cases p with
  | a => exact congrArg (fun x => { d with pa := x }) h
  | b => exact congrArg (fun x => { d with pb := x }) h

/-- A refusal counts, may fire an event, and sets wr_code 11 (R39, R44, R45, R46, R176, R237). -/
theorem Dev.refuse_frame (d : Dev) (p : Port) {v : Verdict} (hv : v ≠ .accept) : ∃ h k n e,
    d.refuse p v = ({ d with ar := { d.ar with holds := h }, kl := k, hn := n, ev := e } : Dev).wrCode p 3 := by
  cases v with
  | accept => exact absurd rfl hv
  | reserve =>
    obtain ⟨n, e, h⟩ := d.lockViol_frame
    exact ⟨d.ar.holds, d.kl, _, e, congrArg (·.wrCode p 3) h⟩
  | policy m =>
    obtain ⟨n, e, h⟩ := Dev.lockViol_frame { d with ar := { d.ar with
      holds := d.ar.holds.modify m fun h => { h with refused := satInc 14 h.refused } } }
    exact ⟨_, d.kl, _, e, congrArg (·.wrCode p 3) h⟩
  | budget =>
    obtain ⟨x, r, h⟩ := Dev.fire_frame { d with kl := { d.kl with refused := satInc 14 d.kl.refused } } 21
    exact ⟨d.ar.holds, _, d.hn, _, congrArg (·.wrCode p 3) h⟩
  | store => exact ⟨d.ar.holds, _, d.hn, d.ev, rfl⟩
  | quiet => exact ⟨d.ar.holds, d.kl, d.hn, d.ev, rfl⟩

theorem Dev.refuse_port (d : Dev) (p : Port) {v : Verdict} (hv : v ≠ .accept) :
    (d.refuse p v).port p = { d.port p with wrCode := 3 } := by
  obtain ⟨h, k, n, e, he⟩ := d.refuse_frame p hv
  rw [he]
  exact Dev.port_modPort _ _ _

theorem Dev.loneCommit_accept {d : Dev} {p : Port} {e : MergeEntry} (h : d.judge p e.addr true = .accept) (stage : Bool)
    (since : Nat) : d.loneCommit p e stage since = d.modPort p fun x => { x with
      rmw := x.rmw ++ [{ addr := e.addr, lo := e.lo, hi := e.hi, base := none, stage := stage, since := since }] } := by
  simp only [Dev.loneCommit, h]

theorem Dev.loneCommit_refused {d : Dev} {p : Port} {e : MergeEntry} (h : d.judge p e.addr true ≠ .accept) (stage : Bool)
    (since : Nat) : d.loneCommit p e stage since = d.refuse p (d.judge p e.addr true) := by
  unfold Dev.loneCommit
  split
  · next ha => exact absurd ha h
  · rfl

theorem Dev.loneCommit_frame (d : Dev) (p : Port) (e : MergeEntry) (stage : Bool) (since : Nat) :
    d.OnlyJudged p (d.loneCommit p e stage since) := by
  by_cases h : d.judge p e.addr true = .accept
  · rw [Dev.loneCommit_accept h]
    exact d.modPort_judged p _
  · rw [Dev.loneCommit_refused h]
    obtain ⟨g, k, n, v, he⟩ := d.refuse_frame p h
    have hcount : d.OnlyJudged p { d with ar := { d.ar with holds := g }, kl := k, hn := n, ev := v } :=
      ⟨by cases p <;> rfl, d.pa, d.pb, _, _, _, _, rfl⟩
    rw [he]
    exact hcount.trans (Dev.modPort_judged _ p _)

theorem Dev.loneCommit_merge (d : Dev) (p : Port) (e : MergeEntry) (stage : Bool) (since : Nat) :
    ((d.loneCommit p e stage since).port p).merge = (d.port p).merge := by
  by_cases h : d.judge p e.addr true = .accept
  · rw [Dev.loneCommit_accept h, Dev.port_modPort]
  · rw [Dev.loneCommit_refused h, Dev.refuse_port d p h]

end Sys2Proof.Machine

/-! ### Merge entries that age out (R196) -/

namespace Sys2Proof.Machine
open Sys2Proof

theorem MergeEntry.lone_iff (e : MergeEntry) : e.lone = true ↔ e.lo.isSome = false ∨ e.hi.isSome = false := by
  rw [MergeEntry.lone, Bool.not_eq_true', Bool.and_eq_false_iff]

theorem MergeEntry.not_lone_iff (e : MergeEntry) : e.lone = false ↔ e.lo.isSome = true ∧ e.hi.isSome = true := by
  rw [MergeEntry.lone, Bool.not_eq_false', Bool.and_eq_true]

theorem PortSt.dropEntry_merge (x : PortSt) (a : Nat) :
    (x.dropEntry a).merge = x.merge.filter fun e => e.addr != a := by
  unfold PortSt.dropEntry
  split
  · rfl
  · next h =>
    refine (List.filter_eq_self.2 fun e he => ?_).symm
    simp only [List.any_eq_true, not_exists, not_and, Bool.not_eq_true] at h
    simp [bne, h e he]

/-- A port whose only merge entry has left its buffer. -/
def PortSt.emptied (x : PortSt) : PortSt := { x with merge := [], mergeFree := x.mergeFree + 1 }

theorem PortSt.dropEntry_single {x : PortSt} {e : MergeEntry} (h : x.merge = [e]) :
    x.dropEntry e.addr = x.emptied := by
  simp [PortSt.dropEntry, h, PortSt.emptied]

theorem Dev.ageOne_lone {p : Port} {e : MergeEntry} (h : e.lone = true) (d : Dev) :
    d.ageOne p e = (d.modPort p fun x => x.dropEntry e.addr).loneCommit p e false d.now := if_pos h

theorem Dev.ageOne_whole {p : Port} {e : MergeEntry} (h : e.lone = false) (d : Dev) : d.ageOne p e = d :=
  if_neg (by simp [h])

theorem Dev.ageOne_frame (d : Dev) (p : Port) (e : MergeEntry) : d.OnlyJudged p (d.ageOne p e) := by
  rcases h : e.lone
  · rw [Dev.ageOne_whole h]
    exact .refl p d
  · rw [Dev.ageOne_lone h]
    exact (d.modPort_judged p _).trans (Dev.loneCommit_frame _ _ _ _ _)

/-- A lone entry that ages out takes its address from the buffer. -/
theorem Dev.ageOne_merge (d : Dev) (p : Port) (e : MergeEntry) : ((d.ageOne p e).port p).merge =
    if e.lone then (d.port p).merge.filter fun f => f.addr != e.addr else (d.port p).merge := by
  rcases h : e.lone
  · rw [Dev.ageOne_whole h]
    rfl
  · rw [Dev.ageOne_lone h, Dev.loneCommit_merge, Dev.port_modPort, PortSt.dropEntry_merge]
    rfl

/-- No entry comes in while entries age out, and of those that do none stays with one half. -/
theorem Dev.mem_merge_foldl_ageOne {p : Port} {e : MergeEntry} : ∀ (l : List MergeEntry) (d : Dev),
    e ∈ ((l.foldl (fun d f => d.ageOne p f) d).port p).merge → e ∈ (d.port p).merge ∧ (e ∈ l → e.lone = false)
  | [], _, h => ⟨h, fun hn => absurd hn List.not_mem_nil⟩
  | f :: l, d, h => by
    obtain ⟨hmem, hl⟩ := mem_merge_foldl_ageOne l (d.ageOne p f) h
    rw [Dev.ageOne_merge] at hmem
    rcases hf : f.lone
    · rw [hf] at hmem
      exact ⟨hmem, fun he => (List.mem_cons.1 he).elim (fun hef => hef ▸ hf) hl⟩
    · rw [if_pos hf, List.mem_filter, bne_iff_ne] at hmem
      obtain ⟨hd, hne⟩ := hmem
      exact ⟨hd, fun he => hl ((List.mem_cons.1 he).resolve_left fun hef => hne (hef ▸ rfl))⟩

theorem Dev.ageOut_frame (d : Dev) (p : Port) : d.OnlyJudged p (d.ageOut p) :=
  List.foldlRecOn _ _ (motive := Dev.OnlyJudged p d) (.refl p d) fun e he f _ => he.trans (e.ageOne_frame p f)

/-- R196: after the boundary the port's entries are among those before it, and an old one holds both halves. -/
theorem Dev.mem_merge_ageOut {d : Dev} {p : Port} {e : MergeEntry} (h : e ∈ ((d.ageOut p).port p).merge) :
    e ∈ (d.port p).merge ∧ (e.tick + 2 ≤ d.ck.tick → e.lo.isSome = true ∧ e.hi.isSome = true) := by
  obtain ⟨hmem, hlone⟩ := Dev.mem_merge_foldl_ageOne _ _ h
  exact ⟨hmem, fun hold => e.not_lone_iff.1 (hlone (List.mem_filter.2 ⟨hmem, decide_eq_true hold⟩))⟩

/-- A port's only entry that is old and lone leaves the buffer for its commit. -/
theorem Dev.ageOut_single {d : Dev} {p : Port} {e : MergeEntry} (h : (d.port p).merge = [e]) (hold : e.tick + 2 ≤ d.ck.tick)
    (hlone : e.lone = true) : d.ageOut p = (d.modPort p PortSt.emptied).loneCommit p e false d.now := by
  have hdue : (d.port p).merge.filter (fun f => decide (f.tick + 2 ≤ d.ck.tick)) = [e] := by simp [h, hold]
  have hport : d.modPort p (fun x => x.dropEntry e.addr) = d.modPort p PortSt.emptied :=
    Dev.modPort_congr (PortSt.dropEntry_single h)
  rw [Dev.ageOut, hdue, List.foldl_cons, List.foldl_nil, Dev.ageOne_lone hlone, hport]

end Sys2Proof.Machine

/-! ### The read of a lone half's read-modify-write (R198) -/

namespace Sys2Proof.Machine
open Sys2Proof

theorem Dev.OnlyChecked.port {d e : Dev} (h : d.OnlyChecked e) (p : Port) : e.port p = d.port p := by
  obtain ⟨_, _, _, _, _, _, _, _, _, _, _, _, rfl⟩ := h
  cases p <;> rfl

/-- Outside a replay a read answers what the checker makes of the word. -/
theorem Dev.readArr_snd {d : Dev} (h : d.pw.mode ≠ .replay) (o a : Nat) : (d.readArr o a).2 = d.checkAt a := by
  have hmode : (if d.bankDead a then { d with draws := d.draws + 1 } else d : Dev).pw.mode ≠ .replay := by
    split <;> exact h
  simp only [Dev.readArr, if_neg hmode]

/-- The device after the read of a lone-half commit and its touch. -/
def Dev.rmwTouched (d : Dev) (p : Port) (m : Rmw) : Dev :=
  ((d.readArr (portCode p) m.addr).1.touch p m.addr false true).1

theorem Dev.rmwTouched_port (d : Dev) (p : Port) (m : Rmw) : (d.port p).OnlyTouched ((d.rmwTouched p m).port p) := by
  have h := (Dev.touch_frame (d.readArr (portCode p) m.addr).1 p m.addr false true).1 p
  rwa [(d.readArr_frame _ _).port] at h

theorem Dev.rmwTouched_sameMemory (d : Dev) (p : Port) (m : Rmw) : (d.rmwTouched p m).sameMemory d := fun a =>
  (((Dev.touch_frame _ p m.addr false true).rawGet a).trans ((d.readArr_frame _ _).rawGet a)).symm

theorem Dev.rmwRead_eq {d : Dev} (h : d.pw.mode ≠ .replay) (p : Port) (m : Rmw) : d.rmwRead p m =
    if (d.checkAt m.addr).out = .uncorrectable then
      ((d.rmwTouched p m).modPort p fun x => { x with rmw := x.rmw.erase m }).abandonRmw p m.addr (d.checkAt m.addr)
    else (d.rmwTouched p m).modPort p fun x =>
      { x with rmw := x.rmw.replace m { m with base := some (d.checkAt m.addr).data } } := by
  rw [← d.readArr_snd h (portCode p)]
  rfl

/-- Beside the port's count and its wr_code 11, a lone-half commit that is abandoned is an error logged. -/
theorem Dev.abandonRmw_frame (d : Dev) (p : Port) (a : Nat) (r : Decoded) :
    Dev.OnlyChecked (d.modPort p fun x => { x with mAband := min 16383 (x.mAband + 1), wrCode := 3 })
      (d.abandonRmw p a r) := by
  have hport : d.modPort p (fun x => { x with mAband := min 16383 (x.mAband + 1), wrCode := 3 })
      = (d.modPort p fun x => { x with mAband := satInc 14 x.mAband }).wrCode p 3 := by cases p <;> rfl
  rw [hport]
  exact (Dev.logErr_checked _ _ _ _ _ _ _).trans (Dev.fire_checked _ _)

theorem Dev.sameMemory.trans {d e f : Dev} (h : d.sameMemory e) (k : e.sameMemory f) : d.sameMemory f :=
  fun a => (k a).trans (h a)

theorem Dev.abandonRmw_sameMemory (d : Dev) (p : Port) (a : Nat) (r : Decoded) : (d.abandonRmw p a r).sameMemory d :=
  Dev.sameMemory.trans (fun b => ((d.abandonRmw_frame p a r).rawGet b).symm) (d.modPort_judged p _).sameMemory

/-- The read changes no word, whatever it finds. -/
theorem Dev.rmwRead_sameMemory {d : Dev} (h : d.pw.mode ≠ .replay) (p : Port) (m : Rmw) : (d.rmwRead p m).sameMemory d := by
  rw [Dev.rmwRead_eq h]
  refine Dev.sameMemory.trans ?_ (d.rmwTouched_sameMemory p m)
  split
  · exact (Dev.abandonRmw_sameMemory _ _ _ _).trans (Dev.modPort_judged _ p _).sameMemory
  · exact (Dev.modPort_judged _ p _).sameMemory

/-- The commit is abandoned on an uncorrectable read, and otherwise holds the checker's data. -/
theorem Dev.rmwRead_port {d : Dev} (h : d.pw.mode ≠ .replay) (p : Port) (m : Rmw) :
    if (d.checkAt m.addr).out = .uncorrectable then
      ((d.rmwRead p m).port p).rmw = (d.port p).rmw.erase m ∧ ((d.rmwRead p m).port p).wrCode = 3
      ∧ ((d.rmwRead p m).port p).mAband = min 16383 ((d.port p).mAband + 1)
    else ((d.rmwRead p m).port p).rmw
      = (d.port p).rmw.replace m { m with base := some (d.checkAt m.addr).data } := by
  obtain ⟨n, t, v, hport⟩ := d.rmwTouched_port p m
  rw [Dev.rmwRead_eq h]
  split
  · rw [(Dev.abandonRmw_frame _ p _ _).port, Dev.port_modPort, Dev.port_modPort, hport]
    exact ⟨rfl, rfl, rfl⟩
  · rw [Dev.port_modPort, hport]

end Sys2Proof.Machine

/-! ### MERGE_AGE_OUT and MERGE_RMW -/

namespace Sys2Proof.Machine
open Sys2Proof

theorem exec_mergeAgeOut {s : State} {dt : Nat} (h : s.timed dt) (p : Port) :
    exec (.mergeAgeOut dt p) s = .next (s.withDev ((s.after dt).ageOut p)) :=
  State.act_timed h fun d => d.ageOut p

theorem exec_mergeRmw {s : State} (h : s.dev.pw.powered = true) (dt : Nat) (p : Port) :
    exec (.mergeRmw dt p) s = .next (s.withDev ((s.after dt).rmwStep p)) :=
  State.act_powered h dt fun d => d.rmwStep p

theorem Dev.rmwStep_none {d : Dev} {p : Port} (h : ∀ m ∈ (d.port p).rmw, d.rmwDue p m = false) : d.rmwStep p = d := by
  have hnone : (d.port p).rmw.find? (fun m => d.rmwDue p m) = none := List.find?_eq_none.2 fun m hm => by simp [h m hm]
  simp only [Dev.rmwStep, hnone]

/-- The first due commit, before its read, takes its bank's slot for the read. -/
theorem Dev.rmwStep_read {d : Dev} {p : Port} {m : Rmw} (h : (d.port p).rmw.find? (fun m => d.rmwDue p m) = some m)
    (hbase : m.base = none) : d.rmwStep p = (d.useBank (bankOf m.addr)).rmwRead p m := by
  simp only [Dev.rmwStep, h, Dev.rmwRun, hbase]

/-- Settles O18: what ages out is `Dev.ageOut`, with the verdict that the device before it gives; the read is `Dev.rmwRead`. -/
theorem mergeEntries : Obligations.MergeEntries := by
  intro s dt p hpow d
  refine ⟨fun htimed => ⟨_, exec_mergeAgeOut ⟨hpow, htimed⟩ p, rfl, fun e he => Dev.mem_merge_ageOut he,
    fun e hone hold hhalf => ?ages, (d.ageOut_frame p).sameMemory, (d.ageOut_frame p).1⟩,
    fun m hmode hfind hbase => ?read, fun hnone => ?idle⟩
  case ages =>
    rw [State.withDev_dev, Dev.ageOut_single hone hold (e.lone_iff.2 hhalf)]
    have hjudge := d.judge_modPort p PortSt.emptied p e.addr true
    by_cases hacc : d.judge p e.addr true = .accept
    · rw [Dev.loneCommit_accept (hjudge.trans hacc), Dev.port_modPort, Dev.port_modPort]
      exact ⟨rfl, rfl, fun _ => rfl, fun hn => absurd hacc hn⟩
    · have href := hjudge ▸ hacc
      rw [Dev.loneCommit_refused href, Dev.refuse_port _ p href, Dev.port_modPort]
      exact ⟨rfl, rfl, fun ha => absurd ha hacc, fun _ => ⟨rfl, rfl⟩⟩
  case read =>
    have hexec := exec_mergeRmw hpow dt p
    rw [Dev.rmwStep_read hfind hbase] at hexec
    have hused : (d.useBank (bankOf m.addr)).pw.mode ≠ .replay := hmode
    exact ⟨_, hexec, rfl, Dev.rmwRead_sameMemory hused p m, Dev.rmwRead_port hused p m⟩
  case idle => rw [exec_mergeRmw hpow, Dev.rmwStep_none hnone]

end Sys2Proof.Machine

/-! ### What the keel store begins beside its writes (R227 to R233, R236) -/

namespace Sys2Proof.Machine
open Sys2Proof

/-- Nothing calls for a map commit: no store waits for one, no store sequence runs, no retirement is under way (R214, R232, R236). -/
def Dev.NoCommitCalled (d : Dev) : Prop :=
  d.storing = false ∧ d.kl.uncovered = [] ∧ d.kl.seqStart = none ∧ d.ar.retire = none

/-- The two devices differ in their keel stores at most, by reads, programmings and map commits that begin or wait: the physical pages,
the stores, the tables and the listed pages stay, and, where nothing calls for a map commit, so do the one that runs and the map slots. -/
structure Dev.OnlyBegins (d e : Dev) : Prop where
  rest : e = { d with kl := e.kl }
  phys : e.kl.phys = d.kl.phys
  uncovered : e.kl.uncovered = d.kl.uncovered
  logical : e.kl.logical = d.kl.logical
  seqStart : e.kl.seqStart = d.kl.seqStart
  pages : e.kl.pages.map PageRec.page = d.kl.pages.map PageRec.page
  commit : d.NoCommitCalled → e.kl.commit = d.kl.commit ∧ e.kl.map0 = d.kl.map0 ∧ e.kl.map1 = d.kl.map1

theorem Dev.OnlyBegins.refl (d : Dev) : d.OnlyBegins d := ⟨rfl, rfl, rfl, rfl, rfl, rfl, fun _ => ⟨rfl, rfl, rfl⟩⟩

theorem Dev.OnlyBegins.noCommitCalled {d e : Dev} (h : d.OnlyBegins e) (k : d.NoCommitCalled) : e.NoCommitCalled := by
  obtain ⟨hstoring, huncovered, hseq, hretire⟩ := k
  have hrest := h.rest
  refine ⟨?_, h.uncovered.trans huncovered, h.seqStart.trans hseq, ?_⟩
  · rw [hrest]
    exact hstoring
  · rw [hrest]
    exact hretire

theorem Dev.OnlyBegins.trans {d e f : Dev} (h : d.OnlyBegins e) (k : e.OnlyBegins f) : d.OnlyBegins f where
  rest := by
    have hf := k.rest
    rw [h.rest] at hf
    exact hf
  phys := k.phys.trans h.phys
  uncovered := k.uncovered.trans h.uncovered
  logical := k.logical.trans h.logical
  seqStart := k.seqStart.trans h.seqStart
  pages := k.pages.trans h.pages
  commit hn := by
    obtain ⟨hc, h0, h1⟩ := h.commit hn
    obtain ⟨kc, k0, k1⟩ := k.commit (h.noCommitCalled hn)
    exact ⟨kc.trans hc, k0.trans h0, k1.trans h1⟩

theorem Dev.OnlyBegins.sameMemory {d e : Dev} (h : d.OnlyBegins e) : e.sameMemory d := by
  rw [h.rest]
  exact fun _ => rfl

theorem Dev.OnlyBegins.phys_eq {d e : Dev} (h : d.OnlyBegins e) (p : Nat) : e.phys p = d.phys p := by
  rw [Dev.phys, h.phys, Dev.phys]

theorem Dev.pageRec_eq_none_iff (d : Dev) (page : Nat) : d.pageRec page = none ↔ page ∉ d.kl.pages.map PageRec.page := by
  simp [Dev.pageRec]

theorem Dev.OnlyBegins.pageRec_none {d e : Dev} (h : d.OnlyBegins e) {page : Nat} (hn : d.pageRec page = none) :
    e.pageRec page = none := by
  rw [Dev.pageRec_eq_none_iff] at hn ⊢
  rwa [h.pages]

/-- A change of the reads, the buffers, the programming and the listed pages' states. -/
theorem Dev.queues_begins (d : Dev) {reading : Option PageBuf} {buffers : List PageBuf} {prog : Option Program}
    {waiting stuck : Bool} {waits : Nat} {poolAt : Option Nat} {pages : List PageRec}
    (hpages : pages.map PageRec.page = d.kl.pages.map PageRec.page) :
    d.OnlyBegins { d with kl := { d.kl with reading := reading, buffers := buffers, prog := prog, waiting := waiting,
                                            stuck := stuck, poolWaits := waits, poolAt := poolAt, pages := pages } } :=
  ⟨rfl, rfl, rfl, rfl, rfl, hpages, fun _ => ⟨rfl, rfl, rfl⟩⟩

/-- A change of states keeps the list of pages. -/
theorem map_page_of_keeps {f : PageRec → PageRec} (hf : ∀ x, (f x).page = x.page) (l : List PageRec) :
    (l.map f).map PageRec.page = l.map PageRec.page := by
  rw [List.map_map]
  exact List.map_congr_left fun x _ => hf x

theorem Dev.beginRead_begins (d : Dev) : d.OnlyBegins d.beginRead := by
  unfold Dev.beginRead
  split
  · exact .refl d
  · split
    · exact d.queues_begins (map_page_of_keeps (fun x => by split <;> rfl) _)
    · exact .refl d

theorem Dev.startCommit_begins {d : Dev} (h : ¬ d.NoCommitCalled) (final : Bool) (first : Nat) :
    d.OnlyBegins (d.startCommit final first) := by
  unfold Dev.startCommit
  split
  · exact .refl d
  · simp only
    split
    · exact ⟨rfl, rfl, rfl, rfl, rfl, rfl, fun hn => absurd hn h⟩
    · split <;> exact ⟨rfl, rfl, rfl, rfl, rfl, rfl, fun hn => absurd hn h⟩

theorem Dev.checkNext_begins (d : Dev) : d.OnlyBegins d.checkNext := d.queues_begins rfl

theorem Dev.poolStep_begins (d : Dev) : d.OnlyBegins d.poolStep := by
  unfold Dev.poolStep
  split
  · next h =>
    refine Dev.startCommit_begins (fun hn => ?_) _ _
    obtain ⟨_, huncovered, _⟩ := hn
    simp [Dev.poolCalls, huncovered] at h
  · exact .refl d

theorem Dev.followUp_begins (d : Dev) : d.OnlyBegins d.followUp := by
  unfold Dev.followUp
  split
  · exact .refl d
  · split
    · next h =>
      refine Dev.startCommit_begins (fun hn => ?_) _ _
      obtain ⟨_, _, hseq, _⟩ := hn
      simp [hseq] at h
    · split
      · next h =>
        refine Dev.startCommit_begins (fun hn => ?_) _ _
        obtain ⟨_, _, _, hretire⟩ := hn
        simp [Dev.retireWaits, hretire] at h
      · exact .refl d

theorem Dev.poolEnds_begins (d : Dev) (first : Nat) : d.OnlyBegins (d.poolEnds first) := by
  unfold Dev.poolEnds
  split
  · next h =>
    refine Dev.startCommit_begins (fun hn => ?_) _ _
    obtain ⟨hstoring, _⟩ := hn
    simp [hstoring] at h
  · exact d.queues_begins (map_page_of_keeps (f := fun x => { x with state := .dirty }) (fun _ => rfl) _)

theorem Dev.poolWait_begins (d : Dev) (first : Nat) : d.OnlyBegins (d.poolWait first) := by
  have hcounted : ∀ e : Dev, e.OnlyBegins (if e.kl.commit.isSome then e
      else if e.kl.uncovered.isEmpty then e.poolEnds first else e.startCommit false first) := by
    intro e
    split
    · exact .refl e
    · split
      · exact e.poolEnds_begins first
      · next h =>
        refine Dev.startCommit_begins (fun hn => h ?_) _ _
        obtain ⟨_, huncovered, _⟩ := hn
        rw [huncovered]
        rfl
  unfold Dev.poolWait
  refine Dev.OnlyBegins.trans ?_ (hcounted _)
  split
  · exact .refl d
  · exact d.queues_begins rfl

theorem Dev.programPage_begins (d : Dev) (b : PageBuf) (first : Nat) : d.OnlyBegins (d.programPage b first) := by
  unfold Dev.programPage
  split
  · exact (d.queues_begins rfl).trans (Dev.checkNext_begins _)
  · exact d.poolWait_begins first

theorem Dev.beginProgram_begins (d : Dev) (first : Nat) : d.OnlyBegins (d.beginProgram first) := by
  unfold Dev.beginProgram
  split
  · exact .refl d
  · split
    · exact .refl d
    · exact d.programPage_begins _ first

end Sys2Proof.Machine

/-! ### A page store that commits (R221, R224, R227, R231) -/

namespace Sys2Proof.Machine
open Sys2Proof

theorem assoc_assocSet_of_ne {β : Type} (l : List (Nat × β)) {j k : Nat} (h : j ≠ k) (v : β) :
    assoc (assocSet l k v) j = assoc l j := by
  have hfind : (l.filter fun p => p.1 != k).find? (fun p => p.1 == j) = l.find? fun p => p.1 == j := by
    rw [List.find?_filter]
    congr 1
    funext p
    by_cases hp : p.1 = j <;> simp [hp, h]
  simp only [assoc, assocSet, List.find?_cons, beq_false_of_ne h.symm, hfind]

theorem Dev.phys_of_assocSet {d e : Dev} {p : Nat} {x : Phys} (h : e.kl.phys = assocSet d.kl.phys p x) :
    e.phys p = x ∧ ∀ q, q ≠ p → e.phys q = d.phys q := by
  refine ⟨?_, fun q hq => ?_⟩
  · rw [Dev.phys, h, assoc_assocSet]
    rfl
  · rw [Dev.phys, h, assoc_assocSet_of_ne _ hq, Dev.phys]

theorem Dev.returnUnit_frame (d : Dev) : ∃ o n, d.returnUnit = { d with kl := { d.kl with overdraft := o, free := n } } := by
  unfold Dev.returnUnit
  split
  · exact ⟨_, d.kl.free, rfl⟩
  · exact ⟨d.kl.overdraft, _, rfl⟩

/-- The page's state changes, or it leaves the list and its unit returns. -/
theorem Dev.pageStored_frame (d : Dev) (page : Nat) : ∃ pages o n,
    d.pageStored page = { d with kl := { d.kl with pages := pages, overdraft := o, free := n } } := by
  unfold Dev.pageStored
  split
  · split
    · exact ⟨_, d.kl.overdraft, d.kl.free, rfl⟩
    · obtain ⟨o, n, h⟩ := Dev.returnUnit_frame { d with kl := { d.kl with pages := d.kl.pages.filter fun x => x.page != page } }
      exact ⟨_, o, n, h⟩
  · exact ⟨d.kl.pages, d.kl.overdraft, d.kl.free, rfl⟩

/-- R224: a page that was not written since its read is CLEAN once its store commits. -/
theorem Dev.pageRec_pageStored {d : Dev} {page : Nat} (h : ∀ r, d.pageRec page = some r → r.state ≠ .redirty) :
    (d.pageStored page).pageRec page = none := by
  unfold Dev.pageStored
  split
  · next r hr =>
    obtain ⟨o, n, hunit⟩ := Dev.returnUnit_frame { d with kl := { d.kl with
      pages := d.kl.pages.filter fun x => x.page != page } }
    rw [if_neg (h r hr), hunit, Dev.pageRec_eq_none_iff]
    simp
  · next hr => exact hr

/-- The CRC-32 is over the items beside it. -/
theorem PageCopy.sum_withCrc (c : PageCopy) (n : Nat) : { c with crc := n }.sum = c.sum :=
  congrArg crc32 (show { c with crc := n }.bytes = c.bytes from rfl)

/-- A copy as it is written carries its own CRC (R221). -/
theorem PageBuf.contents_crcOk (b : PageBuf) (order : Nat) : (b.contents order).crcOk = true := by
  rw [PageCopy.crcOk, beq_iff_eq]
  exact (PageCopy.sum_withCrc _ _).symm

/-- What the physical page holds once the store has committed. -/
def Dev.storedPhys (d : Dev) (b : PageBuf) (p : Nat) : Phys :=
  { d.phys p with count := (d.phys p).count + 1, copy := some (b.contents d.kl.nextOrder) }

/-- Before a replay has spent the device, a committed store is the physical page's contents, a store that waits for its map commit, the
page's new state and an output unit. -/
theorem Dev.commitPage_frame {d : Dev} (h : d.lb.spent = false) (b : PageBuf) (p : Nat) : ∃ pages o n r x,
    d.commitPage b p = { d with lb := x, kl := { d.kl with
      phys := assocSet d.kl.phys p (d.storedPhys b p),
      uncovered := d.kl.uncovered ++ [{ logical := b.logical, phys := p, page := b.page }],
      prog := none, nextOrder := r, pages := pages, overdraft := o, free := n } } := by
  unfold Dev.commitPage
  simp only [h, Bool.false_eq_true, if_false]
  obtain ⟨x, hx⟩ := Dev.emit_frame { d with kl := { d.kl with
    phys := assocSet d.kl.phys p (d.storedPhys b p),
    uncovered := d.kl.uncovered ++ [{ logical := b.logical, phys := p, page := b.page }],
    prog := none, nextOrder := d.kl.nextOrder + 1 } } 5 0 0 b.logical p
  rw [Dev.storedPhys] at hx
  rw [hx]
  split
  · exact ⟨d.kl.pages, d.kl.overdraft, d.kl.free, _, x, rfl⟩
  · obtain ⟨pages, o, n, hs⟩ := Dev.pageStored_frame _ b.page
    exact ⟨pages, o, n, _, x, hs⟩

theorem Dev.pageRec_commitPage {d : Dev} {b : PageBuf} (hmove : b.move = false)
    (h : ∀ r, d.pageRec b.page = some r → r.state ≠ .redirty) (p : Nat) : (d.commitPage b p).pageRec b.page = none := by
  unfold Dev.commitPage
  simp only [hmove, Bool.false_eq_true, if_false]
  refine Dev.pageRec_pageStored ?_
  obtain ⟨x, hx⟩ := Dev.emit_frame _ 5 0 0 b.logical p
  rw [hx]
  exact h

/-- R242: a page that fails to verify is bad and raises no store count (log entry 27); beside that a record is captured, events
fire, and the buffer waits again. -/
theorem Dev.programFailed_begins (d : Dev) (b : PageBuf) (p : Nat) : ∃ x v bufs w,
    Dev.OnlyBegins { d with lb := x, ev := v, kl := { d.kl with phys := assocSet d.kl.phys p { d.phys p with bad := true },
                                                                prog := none, buffers := bufs, wornFired := w } }
      (d.programFailed b p) := by
  have hlast : ∀ e : Dev, e.OnlyBegins (if e.followUp.mayProgram (e.followUp.now + 1) then
      e.followUp.programPage b (e.followUp.now + 1) else e.followUp.checkNext) := by
    intro e
    refine e.followUp_begins.trans ?_
    split
    · exact Dev.programPage_begins _ _ _
    · exact Dev.checkNext_begins _
  obtain ⟨x, hx⟩ := d.capture_frame 11 d.ck.slot (wd 11 :: twoWords d.ck.slot ++ [wd p])
  unfold Dev.programFailed
  simp only
  rw [hx]
  obtain ⟨y, r, hy⟩ := Dev.fire_frame { d with lb := x, kl := { d.kl with
    phys := assocSet d.kl.phys p { d.phys p with bad := true }, prog := none, buffers := b :: d.kl.buffers } } 23
  have hphys : ({ d with lb := x } : Dev).phys p = d.phys p := rfl
  rw [hphys, hy]
  split
  · obtain ⟨z, q, hz⟩ := Dev.fire_frame { d with lb := x, ev := { d.ev with srcs := y, recs := r }, kl := { d.kl with
      phys := assocSet d.kl.phys p { d.phys p with bad := true }, prog := none, buffers := b :: d.kl.buffers,
      wornFired := true } } 24
    rw [hz]
    exact ⟨x, _, _, true, hlast _⟩
  · exact ⟨x, _, _, d.kl.wornFired, hlast _⟩

end Sys2Proof.Machine

/-! ### PAGE_STORE_COMMIT and MAP_COMMIT_COMPLETE (R227, R229, R231, R242) -/

namespace Sys2Proof.Machine
open Sys2Proof

theorem exec_pageStoreCommit {s : State} (h : s.dev.pw.powered = true) (dt : Nat) (ok : Bool) :
    exec (.pageStoreCommit dt ok) s = .next (s.withDev ((s.after dt).programEnds ok)) :=
  State.act_powered h dt fun d => d.programEnds ok

theorem exec_mapCommitComplete {s : State} (h : s.dev.pw.powered = true) (dt : Nat) :
    exec (.mapCommitComplete dt) s = .next (s.withDev (s.after dt).commitEnds) :=
  State.act_powered h dt Dev.commitEnds

/-- A page's last slot: its own read has ended, and 16,000 slots have counted (log entry 45). -/
theorem Dev.programDue_iff {d : Dev} {g : Program} (h : d.kl.prog = some g) :
    d.programDue = true ↔ g.buf.read = 1024 ∧ 16000 ≤ d.programmed g (d.now + 1) := by
  simp only [Dev.programDue, h, Bool.and_eq_true, beq_iff_eq, decide_eq_true_eq]
  rfl

theorem Dev.programEnds_early {d : Dev} {g : Program} (h : d.kl.prog = some g)
    (hearly : g.buf.read ≠ 1024 ∨ d.programmed g (d.now + 1) < 16000) (ok : Bool) : d.programEnds ok = d := by
  have hdue : ¬ d.programDue = true := by
    rw [Dev.programDue_iff h]
    omega
  simp only [Dev.programEnds, h, if_neg hdue]

theorem Dev.programEnds_none {d : Dev} (h : d.kl.prog = none) (ok : Bool) : d.programEnds ok = d := by
  simp only [Dev.programEnds, h]

/-- Outside REPLAY a page's last slot commits its store or not as it verifies. -/
theorem Dev.programEnds_due {d : Dev} {g : Program} (hmode : d.pw.mode ≠ .replay) (h : d.kl.prog = some g)
    (hdue : d.programDue = true) (ok : Bool) : d.programEnds ok = d.storeCommit ok := by
  simp only [Dev.programEnds, h, if_pos hdue, if_neg hmode]

theorem MapCommit.dueAt_last {c : MapCommit} {now : Nat} (h : c.startAt + 128000 ≤ now + 1) : c.dueAt now = true :=
  decide_eq_true h

theorem MapCommit.dueAt_early {c : MapCommit} {now : Nat} (h : now + 1 < c.startAt + 128000) : c.dueAt now = false :=
  decide_eq_false (Nat.not_le.2 h)

/-- Where no map commit stands at its last slot, the page alone ends. -/
theorem Dev.storeCommit_alone {d : Dev} {g : Program} (h : d.kl.prog = some g)
    (hc : ∀ c, d.kl.commit = some c → d.now + 1 < c.startAt + 128000) (ok : Bool) : d.storeCommit ok =
      if ok then ((d.commitPage g.buf g.phys).followUp.poolStep.beginRead).beginProgram (d.now + 1)
      else d.programFailed g.buf g.phys := by
  rcases hk : d.kl.commit with _ | c
  · simp only [Dev.storeCommit, h, hk]
  · simp only [Dev.storeCommit, h, hk, MapCommit.dueAt_early (hc c hk), Bool.false_and, Bool.false_eq_true, if_false]

/-- A store that commits is followed by what its slot begins. -/
theorem Dev.storeCommit_verified {d : Dev} {g : Program} (h : d.kl.prog = some g)
    (hc : ∀ c, d.kl.commit = some c → d.now + 1 < c.startAt + 128000) :
    (d.commitPage g.buf g.phys).OnlyBegins (d.storeCommit true) := by
  rw [Dev.storeCommit_alone h hc, if_pos rfl]
  exact (((Dev.followUp_begins _).trans (Dev.poolStep_begins _)).trans (Dev.beginRead_begins _)).trans
    (Dev.beginProgram_begins _ _)

/-- A page that fails to verify is marked beside what its slot begins. -/
theorem Dev.storeCommit_failed {d : Dev} {g : Program} (h : d.kl.prog = some g)
    (hc : ∀ c, d.kl.commit = some c → d.now + 1 < c.startAt + 128000) : ∃ x v bufs w,
    Dev.OnlyBegins { d with lb := x, ev := v, kl := { d.kl with
      phys := assocSet d.kl.phys g.phys { d.phys g.phys with bad := true },
      prog := none, buffers := bufs, wornFired := w } } (d.storeCommit false) := by
  rw [Dev.storeCommit_alone h hc, if_neg (by decide)]
  exact d.programFailed_begins g.buf g.phys

theorem Dev.commitEnds_none {d : Dev} (h : d.kl.commit = none) : d.commitEnds = d := by
  simp only [Dev.commitEnds, h]

theorem Dev.commitEnds_early {d : Dev} {c : MapCommit} (h : d.kl.commit = some c)
    (hearly : d.now + 1 < c.startAt + 128000) : d.commitEnds = d := by
  simp only [Dev.commitEnds, h, MapCommit.dueAt_early hearly, Bool.false_eq_true, if_false]

/-- A map commit outside a store sequence ends with what its slot begins. -/
theorem Dev.commitEnds_due {d : Dev} {c : MapCommit} (h : d.kl.commit = some c) (hfinal : c.final = false)
    (hdue : c.startAt + 128000 ≤ d.now + 1) : (d.endCommit c).OnlyBegins d.commitEnds := by
  simp only [Dev.commitEnds, h, MapCommit.dueAt_last hdue, hfinal, Bool.not_false, if_true, Dev.commitDue,
    Bool.false_or]
  split
  · exact .refl _
  · exact (((Dev.followUp_begins _).trans (Dev.checkNext_begins _)).trans (Dev.beginRead_begins _)).trans
      (Dev.beginProgram_begins _ _)

/-- With no retirement under way a commit's end changes the tables, the waiting stores and the other map slot alone. -/
theorem Dev.endCommit_eq {d : Dev} (hspent : d.lb.spent = false) (hretire : d.ar.retire = none) (c : MapCommit) :
    d.endCommit c = { d with kl := { d.kl with
      commit := none, logical := coverAll d.kl.logical c.covers, uncovered := d.kl.uncovered.drop c.covers.length,
      released := [], stuck := false,
      map0 := if (d.validMap.map Prod.fst).getD 1 = 0 then d.kl.map0 else some c.copy,
      map1 := if (d.validMap.map Prod.fst).getD 1 = 0 then some c.copy else d.kl.map1 } } := by
  unfold Dev.endCommit Dev.retireDone
  simp only [hspent, hretire, Bool.false_eq_true, if_false]
  split <;> rfl

/-- Settles O43: what a page's last slot writes is `Dev.commitPage` or the bad mark of `Dev.programFailed`, what a map commit's writes
is `Dev.endCommit`, and beside them a slot only begins work (`Dev.OnlyBegins`). -/
theorem storeAndMapCommits : Obligations.StoreAndMapCommits := by
  refine ⟨?stores, ?maps⟩
  case stores =>
    intro s dt ok g hpow d b p
    refine ⟨fun hprog hearly => ?early, fun hprog => ?none, fun hmode hspent hprog hread hslots hcommit => ?ends⟩
    case early => rw [exec_pageStoreCommit hpow, Dev.programEnds_early hprog hearly]
    case none => rw [exec_pageStoreCommit hpow, Dev.programEnds_none hprog]
    case ends =>
      have hdue : d.programDue = true := (Dev.programDue_iff hprog).2 ⟨hread, hslots⟩
      have hexec : ∀ v, exec (.pageStoreCommit dt v) s = .next (s.withDev (d.storeCommit v)) := fun v => by
        rw [exec_pageStoreCommit hpow, Dev.programEnds_due hmode hprog hdue]
      refine ⟨⟨_, hexec true, rfl, ?verified⟩, ⟨_, hexec false, rfl, ?failed⟩⟩
      case verified =>
        have hbegins := Dev.storeCommit_verified hprog hcommit
        have hclean : b.move = false → (∀ r, d.pageRec b.page = some r → r.state ≠ .redirty) →
            (d.storeCommit true).pageRec b.page = none :=
          fun hmove hstate => hbegins.pageRec_none (Dev.pageRec_commitPage hmove hstate p)
        obtain ⟨pages, o, n, r, x, hstore⟩ := Dev.commitPage_frame hspent b p
        rw [hstore] at hbegins
        obtain ⟨hphys, hothers⟩ := Dev.phys_of_assocSet hbegins.phys
        refine ⟨hbegins.sameMemory, ?_, ?_, hothers, hbegins.uncovered, hclean⟩
        · exact congrArg Phys.count hphys
        · rw [State.withDev_dev, hphys, Dev.storedPhys, Option.map_some, PageBuf.contents_crcOk]
          rfl
      case failed =>
        obtain ⟨x, v, bufs, w, hbegins⟩ := Dev.storeCommit_failed hprog hcommit
        obtain ⟨hphys, hothers⟩ := Dev.phys_of_assocSet hbegins.phys
        exact ⟨hbegins.sameMemory, congrArg Phys.bad hphys, (congrArg Phys.count hphys).trans rfl,
          (congrArg Phys.copy hphys).trans rfl, hothers, hbegins.uncovered, hbegins.pages⟩
  case maps =>
    intro s dt c hpow d
    refine ⟨fun hrun => ?early, fun hspent hcommit hfinal hdue hseq hstoring hretire hcovers => ?ends⟩
    case early =>
      rw [exec_mapCommitComplete hpow]
      rcases hrun with hnone | ⟨hsome, hearly⟩
      · rw [Dev.commitEnds_none hnone]
      · rw [Dev.commitEnds_early hsome hearly]
    case ends =>
      have hbegins := Dev.commitEnds_due hcommit hfinal hdue
      rw [Dev.endCommit_eq hspent hretire c, ← hcovers, List.drop_length] at hbegins
      obtain ⟨hc, h0, h1⟩ := hbegins.commit ⟨hstoring, rfl, hseq, hretire⟩
      refine ⟨_, exec_mapCommitComplete hpow dt, rfl, hbegins.sameMemory, ⟨fun hslot => ?_, fun hslot => ?_⟩,
        ?_, hbegins.uncovered, hc⟩
      · exact ⟨h1.trans (if_pos hslot), h0.trans (if_pos hslot)⟩
      · exact ⟨h0.trans (if_neg hslot), h1.trans (if_neg hslot)⟩
      · rw [← hcovers]
        exact hbegins.logical

end Sys2Proof.Machine
